-- ==== Sys2Proof/Word.lean ====
section
/-! DEFINITION. The words of the engine: data words, command words, bytes (00_scope.md section 7.1). -/

namespace Sys2Proof

/-- A data word: `XLEN` = 32 bits, unsigned (R4). -/
abbrev Word := BitVec 32

/-- A command word: 34 bits (R50). -/
abbrev CmdWord := BitVec 34

/-- A byte of the host's block buffer (00_scope.md section 7.1). -/
abbrev Byte := BitVec 8

end Sys2Proof
end

