-- ==== Sys2Proof/Config.lean ====
section
/-! DEFINITION. What the hardware fixes (R4, R6, R16) and the one value the spec leaves free (R23). The multiplier's wired
constants `Config.modulus` and `Config.multiplier` (R5) stand in Machine/Modmul.lean, where a repair may mend them: the
source gives `A` in two renderings that disagree (90_conflicts.md C1, 92_eei_decisions.md D19). -/

namespace Sys2Proof

/-- `BLOCK_SIZE`: bytes per block (R4). -/
abbrev Config.blockSize : Nat := 512

/-- `HDR`: header bytes before the first word of a block (R4). -/
abbrev Config.headerSize : Nat := 12

/-- `W`: the words one seed may produce, by the formula of R6 (90_conflicts.md C2); 125 here. -/
abbrev Config.quota : Nat := (Config.blockSize - Config.headerSize) / 4

/-- `N`: the blocks of one file; the host's loop bound only (R4). -/
def Config.fileBlocks : Nat := 400

/-- The value `X` takes at the `k`-th `Reset` step: unspecified (R23, R150; U4 "a draw at each `Reset` step").
DESIGN CHOICE (log 2): a free value, so that nothing can be proved of it. Safe. -/
opaque Config.resetX : Nat → Word

end Sys2Proof
end

