-- ==== Sys2Proof/Machine/Modmul.lean ====
section
/-! DEFINITION. The modular multiplier (40_modmul.md): the function `f`, its 64-bit form, and the divider-free one. -/

namespace Sys2Proof

/-- `M` = 2^32 − 5, the modulus (R4, R70). -/
def Config.modulus : Nat := 4294967291

/-- `A`, the multiplier (R4, R71). UNVERIFIED (log 9), unsafe: the value 90_conflicts.md C1 chooses. -/
def Config.multiplier : Nat := 1815976680

end Sys2Proof

namespace Sys2Proof.Machine

/-- `P = X * A`, exact (R22, R72). The constant stands first so that Lean's kernel never counts it down. -/
def product (x : Word) : Nat :=
  Config.multiplier * x.toNat

/-- `f(x) = (x * A) mod M` on natural numbers, exact (R72). -/
def modmul (x : Word) : Word :=
  BitVec.ofNat 32 (product x % Config.modulus)

/-- `f` with a 64-bit unsigned intermediate, which holds every product without wrapping (R73). -/
def modmul64 (x : Word) : Word :=
  ((x.setWidth 64 * BitVec.ofNat 64 Config.multiplier) % BitVec.ofNat 64 Config.modulus).setWidth 32

/-- The wrong function of R73: the product truncated to 32 bits before it is reduced. -/
def modmulTruncated (x : Word) : Word :=
  (x * BitVec.ofNat 32 Config.multiplier) % BitVec.ofNat 32 Config.modulus

/-- R82's fold: `5 * v[hi:32] + v[31:0]`, congruent to `v` modulo `M`. -/
def fold5 (v : Nat) : Nat :=
  5 * (v / 2 ^ 32) + v % 2 ^ 32

/-- The last line of R82: one conditional subtraction. -/
def subtractOnce (u : Nat) : Nat :=
  if Config.modulus ≤ u then u - Config.modulus else u

/-- `f` without a divider: two folds and one conditional subtraction (R82). -/
def modmulFolded (x : Word) : Word :=
  BitVec.ofNat 32 (subtractOnce (fold5 (fold5 (product x))))

/-- `x_k`: `f` applied `k` times to the seed (00_scope.md section 7.3). -/
def iterated : Nat → Word → Word
  | 0, x => x
  | k + 1, x => iterated k (modmul x)

/-- The words `x_1 .. x_k` that `k` iterations from `x` emit, in order (R113). -/
def wordsFrom : Nat → Word → List Word
  | 0, _ => []
  | k + 1, x => modmul x :: wordsFrom k (modmul x)

/-- The closed form `(n * A^k) mod M` (R80). -/
def closedForm (n : Word) (k : Nat) : Word :=
  BitVec.ofNat 32 (Config.multiplier ^ k * n.toNat % Config.modulus)

end Sys2Proof.Machine
end

