-- ==== Sys2Proof/Machine/State.lean ====
section
/-! DEFINITION. The state of the engine (R10, R17), its state after reset (R23), and why a step can stop. -/

namespace Sys2Proof.Machine

/-- Why the machine stops. The faults of the HARDWARE (R131) are no stops: they are taken in a next state. -/
inductive Fault where
  /-- Raised by the `Iter` step alone, in a state with `BUSY = 1` and `CNT = W`: `Iterate()` requires `CNT < W` (R90)
  and R20 excludes that state, so no run reaches it. Safe. DESIGN CHOICE (log 6). -/
  | iterateWithoutQuota
deriving DecidableEq, Repr

/-- Why a command has no meaning. -/
inductive Refusal where
  /-- Raised by `exec` for a command that has no meaning in the model yet. Safe. No command is left so. -/
  | notModelled (mnemonic : String)
deriving DecidableEq, Repr

/-- The two fault causes (R131). -/
inductive Cause where
  /-- `E_RESERVED`, code 1: the reserved command was accepted. -/
  | eReserved
  /-- `E_OVERRUN`, code 2: `STEP` with the quota used up. -/
  | eOverrun
deriving DecidableEq, Repr

/-- `CNT`'s values: `0 .. W` (R13; U11 "should make them unrepresentable"). -/
abbrev Count := Fin (Config.quota + 1)

/-- The registers of R10, the trace of R17, and the inputs from outside the engine. -/
structure State where
  /-- `X`: the recurrence state (R11). -/
  x : Word
  /-- `CNT`: words emitted since the last `SEED` (R13). -/
  cnt : Count
  /-- `BUSY`: a `RUN` is in progress (R14). -/
  busy : Bool
  /-- `ERR`: none is code 0, "no fault" (R15). -/
  err : Option Cause
  /-- `OUT`: every word emitted, oldest first (R17). -/
  out : List Word
  /-- The command words the host offers, next first (R9, R58). The model's own field (log 3). -/
  offers : List CmdWord
  /-- Whether the reset input is active at each coming step, next first; inactive past the end (R150, R151).
  The model's own field (log 4). -/
  resetLine : List Bool
  /-- How many `Reset` steps have drawn a value for `X` (R23). The model's own field (log 2). -/
  resetDraws : Nat
deriving DecidableEq, Repr

/-- `CNT = W`: the quota of the current seed is used up (R13). -/
def Count.spent : Count := Fin.last Config.quota

/-- The state after reset (R23), which is the launch state (R25): `CNT = W`, `BUSY = 0`, `ERR = 0`, `OUT` empty (R17).
`X` is unspecified by R23; the launch state holds 0. DESIGN CHOICE (log 1), unsafe: no statement rests on it. -/
def State.reset : State where
  x := 0#32
  cnt := Count.spent
  busy := false
  err := none
  out := []
  offers := []
  resetLine := []
  resetDraws := 0

end Sys2Proof.Machine
end

