-- ==== Sys2Proof/Machine/Operands.lean ====
section
/-! DEFINITION. The operand forms: one immediate (R52), and the implicit test of the quota (R117). -/

namespace Sys2Proof.Machine

/-- The seed `SEED n` loads: `arg` as it stands, no extension, no scaling, no reduction (R52, R91). -/
def seedValue (n : Word) : Word := n

/-- `CNT < W`: a word of the current seed remains (R90, R92, R110). -/
abbrev State.hasQuota (s : State) : Prop := s.cnt.val < Config.quota

/-- `CNT + 1 = W`: the word now emitted is the last of the block (R111). -/
abbrev State.lastWord (s : State) : Prop := s.cnt.val + 1 = Config.quota

end Sys2Proof.Machine
end

