-- ==== Sys2Proof/Machine/Ops.lean ====
section
/-! DEFINITION. The named operations: register writes, `Emit`, `Iterate()`, fault entry, `Reset`, the gate of R133. -/

namespace Sys2Proof.Machine

/-- `X <- v`. -/
def State.setX (s : State) (v : Word) : State := { s with x := v }

/-- `CNT <- k`. -/
def State.setCnt (s : State) (k : Count) : State := { s with cnt := k }

/-- `BUSY <- b`. -/
def State.setBusy (s : State) (b : Bool) : State := { s with busy := b }

/-- `ERR <- e`. -/
def State.setErr (s : State) (e : Option Cause) : State := { s with err := e }

/-- `Emit(v)`: `OUT <- OUT ++ [v]`, the only output of data (R31). -/
def State.emit (s : State) (v : Word) : State := { s with out := s.out ++ [v] }

/-- `Iterate()`: `X <- f(X); Emit(f(X)); CNT <- CNT + 1`, with its precondition `CNT < W` as an argument (R90). -/
def iterate (s : State) (h : s.hasQuota) : State :=
  ((s.setX (modmul s.x)).emit (modmul s.x)).setCnt ⟨s.cnt.val + 1, Nat.succ_lt_succ h⟩

/-- `SEED`'s two writes: `X <- n; CNT <- 0` (R91). -/
def loadSeed (s : State) (n : Word) : State :=
  (s.setX (seedValue n)).setCnt 0

/-- FAULT ENTRY, `raise Fault(code)`: `ERR <- code` and nothing else (R132). The hardware has no vector, no handler and
saves nothing. -/
def raiseFault (s : State) (c : Cause) : State :=
  s.setErr (some c)

/-- `Reset`, the only way out of a fault (R134): `CNT <- W`, `BUSY <- 0`, `ERR <- 0`, `X` unspecified, `OUT` as it is
(R23, R150). There is no return command. `X` takes the next free value (log 2). -/
def resetEngine (s : State) : State :=
  { (((s.setX (Config.resetX s.resetDraws)).setCnt Count.spent).setBusy false).setErr none with
    resetDraws := s.resetDraws + 1 }

/-- What an accepted command does: its effect when `ERR = 0`, nothing at all when `ERR ≠ 0` (R58, R133). -/
def obey (s : State) (effect : State → State) : Host.Outcome State Fault Refusal :=
  match s.err with
  | none => .next (effect s)
  | some _ => .next s

end Sys2Proof.Machine
end

