-- ==== Sys2Proof/Machine/StateRegister.lean ====
section
/-! DEFINITION. The commands of the state register: `SEED`, `STEP`, `RSVD0` (41_state_register.md). A meaning is what the
command does once it has been accepted; that acceptance needs `BUSY = 0` (R58) is Machine/Sequencer.lean's (log 7). -/

namespace Sys2Proof.Machine

/-- `RSVD0`: raises `E_RESERVED` (R93). -/
def execRsvd0 (s : State) : Host.Outcome State Fault Refusal :=
  obey s fun s => raiseFault s .eReserved

/-- `SEED n`: `X <- n; CNT <- 0` (R91). -/
def execSeed (n : Word) (s : State) : Host.Outcome State Fault Refusal :=
  obey s fun s => loadSeed s n

/-- `STEP`: one iteration when `CNT < W`, else `E_OVERRUN` (R92). -/
def execStep (s : State) : Host.Outcome State Fault Refusal :=
  obey s fun s => if h : s.hasQuota then iterate s h else raiseFault s .eOverrun

end Sys2Proof.Machine
end

