-- ==== Sys2Proof/Machine/Unroller.lean ====
section
/-! DEFINITION. The unroller (42_unroller.md): `RUN` and the engine's own `Iter` step. -/

namespace Sys2Proof.Machine

/-- `RUN`: `if CNT < W then BUSY <- 1`; the words come from the `Iter` steps that follow (R110). -/
def execRun (s : State) : Host.Outcome State Fault Refusal :=
  obey s fun s => if s.hasQuota then s.setBusy true else s

/-- `Iter`: `Iterate()`, then `if CNT + 1 = W then BUSY <- 0`, `CNT` being the value before the step (R111). Its
precondition `CNT < W` holds by R20 wherever it is enabled; elsewhere the machine is stuck (log 6). -/
def iter (s : State) : Host.Outcome State Fault Refusal :=
  if h : s.hasQuota then
    .next (if s.lastWord then (iterate s h).setBusy false else iterate s h)
  else .fault .iterateWithoutQuota

end Sys2Proof.Machine
end

