-- ==== Sys2Proof/Syntax.lean ====
section
/-! DEFINITION. The commands of the engine: one constructor per row of spec/opcode_table.json. -/

namespace Sys2Proof

/-- The four commands (R51). `STEP`, `RUN` and `RSVD0` carry no operand: their `arg` is ignored (R52). -/
inductive Instr where
  /-- `RSVD0`, the reserved command (R93). -/
  | rsvd0
  /-- `SEED n` (R91): the operand is `arg` as it stands (R52). -/
  | seed (n : Word)
  /-- `STEP` (R92). -/
  | step
  /-- `RUN` (R110). -/
  | run
deriving DecidableEq, Repr

end Sys2Proof
end

