-- ==== Sys2Proof/WellFormed.lean ====
section
/-! DEFINITION. What may be encoded: the range of a seed (R59) and of a command word (R50). -/

namespace Sys2Proof

/-- A seed can be encoded exactly when it is in `0 .. 2^32 − 1` (R59). -/
def seedFits (n : Int) : Bool :=
  decide (0 ≤ n) && decide (n < 2 ^ 32)

/-- A number is a command word exactly when it has at most 34 bits (R50). -/
def wordFits (w : Nat) : Bool :=
  decide (w < 2 ^ 34)

/-- A command is well formed when its operand can be encoded. `Instr.seed` holds a 32-bit seed, so a command that
is not well formed cannot be written down: `Sys2Proof.Laws.wellFormed_all`. The seed of an assembler line is an
unbounded integer, and there `seedFits` refuses (Machine/Assembler.lean). -/
def Instr.wellFormed : Instr → Bool
  | .rsvd0 => true
  | .seed n => seedFits n.toNat
  | .step => true
  | .run => true

end Sys2Proof
end

