-- ==== Sys2Proof/Decode.lean ====
section
/-! DEFINITION. The command encoding of 30_encoding.md: fields, the rows of R51, the decoder, the encoder. -/

namespace Sys2Proof

/-- `c.op` = `c[33:32]` (R50). -/
def opField (c : CmdWord) : BitVec 2 :=
  c.extractLsb' 32 2

/-- `c.arg` = `c[31:0]` (R50). -/
def argField (c : CmdWord) : Word :=
  c.extractLsb' 0 32

/-- The word with the two fields: `c = op * 2^32 + arg` (R50). -/
def packFields (op : BitVec 2) (arg : Word) : CmdWord :=
  op ++ arg

/-- One row of R51: a word `c` is the command of a row when `c AND mask = match`. -/
structure OpcodeRow where
  mnemonic : String
  matchBits : CmdWord
  mask : CmdWord
deriving DecidableEq, Repr

/-- The four rows of R51. -/
def opcodeRows : List OpcodeRow :=
  [⟨"RSVD0", 0x000000000#34, 0x300000000#34⟩,
   ⟨"SEED", 0x100000000#34, 0x300000000#34⟩,
   ⟨"STEP", 0x200000000#34, 0x300000000#34⟩,
   ⟨"RUN", 0x300000000#34, 0x300000000#34⟩]

/-- "A word `c` is the command of a row when `c AND mask = match`" (R51). -/
def rowMatches (c : CmdWord) (row : OpcodeRow) : Bool :=
  c &&& row.mask == row.matchBits

/-- The decoder of R55: total on the 2^34 words. -/
def decode (c : CmdWord) : Instr :=
  match (opField c).toFin with
  | 0 => .rsvd0
  | 1 => .seed (argField c)
  | 2 => .step
  | 3 => .run

/-- The name of each command in R51. -/
def mnemonicOf : Instr → String
  | .rsvd0 => "RSVD0"
  | .seed _ => "SEED"
  | .step => "STEP"
  | .run => "RUN"

/-- The value of `op` of each command (R51). -/
def opcodeOf : Instr → BitVec 2
  | .rsvd0 => 0#2
  | .seed _ => 1#2
  | .step => 2#2
  | .run => 3#2

/-- The `arg` the assembler puts into each command's word: the seed, or 0 where `arg` is ignored (R52). -/
def operandOf : Instr → Word
  | .rsvd0 => 0#32
  | .seed n => n
  | .step => 0#32
  | .run => 0#32

/-- The word of each command (R51, R56). -/
def encode (i : Instr) : CmdWord :=
  packFields (opcodeOf i) (operandOf i)

/-- Why a number is no command. -/
inductive DecodeError where
  /-- The number has more than 34 bits: no command word (R50). Safe: the command port is 34 bits wide. -/
  | widerThanCommandWord
deriving DecidableEq, Repr

/-- The decoder on any number: a number of more than 34 bits is no command word and is rejected by name. -/
def decodeNat (w : Nat) : Except DecodeError Instr :=
  if wordFits w then .ok (decode (BitVec.ofNat 34 w)) else .error .widerThanCommandWord

/-- The command word among the low `nbits` bits of `w`, numbered as spec/opcode_table.json numbers them (bit 0 least
significant, one word per command); none where those bits are more than a command word has. -/
def tableWord (nbits w : Nat) : Option CmdWord :=
  if wordFits (w % 2 ^ nbits) then some (BitVec.ofNat 34 (w % 2 ^ nbits)) else none

/-- The command the decoder reads from the table's bits (log 13). -/
def decodeTableWord (nbits w : Nat) : Option Instr :=
  match decodeNat (w % 2 ^ nbits) with
  | .ok i => some i
  | .error _ => none

end Sys2Proof
end

