-- ==== Sys2Proof/Machine/Sequencer.lean ====
section
/-! DEFINITION. What decides which step comes next (R117), and how the host's words reach the engine (R58). -/

namespace Sys2Proof.Machine

/-- The three kinds of step (R7), and the quiescent engine that is offered nothing (R117 (b), R142). -/
inductive Move where
  /-- `Reset` (R150). -/
  | reset
  /-- `Iter` (R111). -/
  | iter
  /-- `Cmd(c)`: the acceptance of `c` (R58). -/
  | cmd (c : CmdWord)
  /-- Nothing is offered: the engine stays as it is. -/
  | idle
deriving DecidableEq, Repr

/-- The reset input at this step; inactive past the end of `resetLine`. -/
def State.resetActive (s : State) : Bool := s.resetLine.headD false

/-- R117: `Reset` when the reset input is active; else `Iter` when `BUSY = 1`; else the acceptance of the word on offer. -/
def nextMove (s : State) : Move :=
  if s.resetActive then .reset
  else if s.busy then .iter
  else
    match s.offers with
    | [] => .idle
    | c :: _ => .cmd c

/-- One step of the reset input has gone by. -/
def State.passTime (s : State) : State := { s with resetLine := s.resetLine.tail }

/-- The word on offer is accepted and acts once (R58). -/
def State.acceptOffer (s : State) : State := { s with offers := s.offers.tail }

/-- The host offers `c` to a ready engine with the reset input inactive at this step (log 13). -/
def State.offerNext (s : State) (c : CmdWord) : State :=
  { s with busy := false, offers := c :: s.offers, resetLine := false :: s.resetLine }

end Sys2Proof.Machine
end

