-- ==== Sys2Proof/Machine/Step.lean ====
section
/-! DEFINITION. One step of the machine (R7), and placing a command word before it. -/

namespace Sys2Proof.Machine

/-- One step: `Reset`, `Iter`, `Cmd(c)`, or nothing where nothing is enabled (R7, R117). -/
def step (s : State) : Host.Outcome State Fault Refusal :=
  match nextMove s with
  | .reset => .next (resetEngine s.passTime)
  | .iter => iter s.passTime
  | .cmd c => exec (decode c) s.passTime.acceptOffer
  | .idle => .next s.passTime

/-- `s` with the table's word on offer, so that the next step accepts it (log 13). -/
def State.withFetchWord (s : State) (nbits w : Nat) : State :=
  match tableWord nbits w with
  | some c => s.offerNext c
  | none => s

end Sys2Proof.Machine
end

