-- ==== Sys2Proof/Machine/Block.lean ====
section
/-! DEFINITION. The block-buffer view of the output (20_memory.md R32 to R35) and the host's loop (R153). The buffer is the
host's: the engine addresses nothing (R30). -/

namespace Sys2Proof.Machine

/-- Byte `j` of a word: `v[8j+7:8j]` (00_scope.md section 7.1). -/
def wordByte (v : Word) (j : Nat) : Byte :=
  v.extractLsb' (8 * j) 8

/-- A word as bytes, lowest address first: little-endian (R33). -/
def wordBytes (v : Word) : List Byte :=
  [wordByte v 0, wordByte v 1, wordByte v 2, wordByte v 3]

/-- The byte offset of the `k`-th word of a block, counted from 0 (R32). -/
def wordOffset (k : Nat) : Nat :=
  Config.headerSize + 4 * k

/-- `MemWrite(addr, 4, v)`: byte `j` of `v` at offset `addr + j` (00_scope.md section 7.2, R33). A write past the end of
the buffer changes nothing there: the spec has no such write (log 14). -/
def memWrite (buf : List Byte) (addr : Nat) (v : Word) : List Byte :=
  (((buf.set addr (wordByte v 0)).set (addr + 1) (wordByte v 1)).set (addr + 2) (wordByte v 2)).set
    (addr + 3) (wordByte v 3)

/-- The host stores the words of a block as they come, the first being word `k` of the block (R32). -/
def storeWords : Nat → List Byte → List Word → List Byte
  | _, buf, [] => buf
  | k, buf, v :: vs => storeWords (k + 1) (memWrite buf (wordOffset k) v) vs

/-- The ASCII tag `helodata`, the bytes 68 65 6C 6F 64 61 74 61 (R34), as the two words that lay it out. -/
def tagWords : Word × Word := (0x6F6C6568#32, 0x61746164#32)

/-- The host writes the 12 header bytes: the tag and the block index (R34, R153). -/
def storeHeader (buf : List Byte) (n : Word) : List Byte :=
  memWrite (memWrite (memWrite buf 0 tagWords.1) 4 tagWords.2) 8 n

/-- What the host makes of its buffer for block `n`, from the words the engine emitted for it (R153). -/
def fillBlock (buf : List Byte) (n : Word) (words : List Word) : List Byte :=
  storeWords 0 (storeHeader buf n) words

/-- The 512 bytes of block `n` as R34 lays them out: tag, index, then `x_1 .. x_125`, each little-endian. -/
def blockBytes (n : Word) : List Byte :=
  wordBytes tagWords.1 ++ wordBytes tagWords.2 ++ wordBytes n ++ (wordsFrom Config.quota n).flatMap wordBytes

/-- `BLOCK n` is the two words of `SEED n` and `RUN` (R57). -/
def blockCommands (n : Word) : List CmdWord :=
  [encode (.seed n), encode .run]

/-- The command words the host of R153 offers for the blocks `0 .. count − 1`, in increasing order. -/
def fileCommands (count : Nat) : List CmdWord :=
  (List.range count).flatMap fun i => blockCommands (BitVec.ofNat 32 i)

/-- The file the host of R153 writes for the blocks `0 .. count − 1`: the blocks one after the other (R34). -/
def fileBytes (count : Nat) : List Byte :=
  (List.range count).flatMap fun i => blockBytes (BitVec.ofNat 32 i)

end Sys2Proof.Machine
end

