-- ==== Sys2Proof/Machine/Assembler.lean ====
section
/-! DEFINITION. The text form of a command sequence (R56), its pseudo-command (R57), and the range of a seed (R59). A text
is a list of characters. Blanks, the case of hexadecimal digits and that no underscore separates them are the model's
choice (log 11). -/

namespace Sys2Proof.Machine

/-- One command of an assembler text: a command with the seed as written, or the pseudo-command `BLOCK n` (R57). -/
inductive Source where
  | rsvd0
  | seed (n : Int)
  | step
  | run
  | block (n : Int)
deriving DecidableEq, Repr

/-- Why a text is rejected. -/
inductive AsmError where
  /-- The first word of the line is no mnemonic of R56 or R57. -/
  | unknownMnemonic
  /-- `SEED` or `BLOCK` without its operand. -/
  | missingOperand
  /-- More operands than the command has. -/
  | unexpectedOperand
  /-- The operand is no unsigned integer in decimal or in hexadecimal with `0x`. -/
  | badNumber
  /-- The seed does not fit in 32 bits (R59). -/
  | seedOutOfRange
deriving DecidableEq, Repr

/-- The assembler's check on a command: its seed can be encoded (R59). -/
def Source.wellFormed : Source → Bool
  | .rsvd0 => true
  | .seed n => seedFits n
  | .step => true
  | .run => true
  | .block n => seedFits n

/-- The command words of one source command; a seed that does not fit is rejected and never reduced (R56, R57, R59). -/
def assembleSource : Source → Except AsmError (List CmdWord)
  | .rsvd0 => .ok [encode .rsvd0]
  | .seed n => if seedFits n then .ok [encode (.seed (BitVec.ofInt 32 n))] else .error .seedOutOfRange
  | .step => .ok [encode .step]
  | .run => .ok [encode .run]
  | .block n => if seedFits n then .ok (blockCommands (BitVec.ofInt 32 n)) else .error .seedOutOfRange

/-- The pieces of a text between the characters that separate it. -/
def splitAtChars (separates : Char → Bool) : List Char → List (List Char)
  | [] => [[]]
  | c :: cs =>
    if separates c then [] :: splitAtChars separates cs
    else
      match splitAtChars separates cs with
      | [] => [[c]]
      | piece :: pieces => (c :: piece) :: pieces

/-- A blank between words: space, tab or carriage return. DESIGN CHOICE (log 11). -/
def isBlank (c : Char) : Bool :=
  c == ' ' || c == '\t' || c == '\r'

/-- The words of a line, without the comment that `;` begins (R56). -/
def lineWords (line : List Char) : List (List Char) :=
  (splitAtChars isBlank (line.takeWhile fun c => c != ';')).filter fun w => !w.isEmpty

/-- The value of a decimal digit. -/
def decimalDigit (c : Char) : Option Nat :=
  if 48 ≤ c.toNat ∧ c.toNat ≤ 57 then some (c.toNat - 48) else none

/-- The value of a hexadecimal digit, in either case; an underscore is none, so `SEED 0xFFFF_FFFB` is `badNumber`: R56 does
not say whether the underscore of the spec's own notation (00_scope.md section 7.1) may stand in an operand.
DESIGN CHOICE (log 11). -/
def hexDigit (c : Char) : Option Nat :=
  if 65 ≤ c.toNat ∧ c.toNat ≤ 70 then some (c.toNat - 55)
  else if 97 ≤ c.toNat ∧ c.toNat ≤ 102 then some (c.toNat - 87)
  else decimalDigit c

/-- The number that digits write, most significant digit first, after digits worth `acc`. -/
def parseDigits (digit : Char → Option Nat) (base : Nat) : Nat → List Char → Option Nat
  | acc, [] => some acc
  | acc, c :: cs =>
    match digit c with
    | some d => parseDigits digit base (acc * base + d) cs
    | none => none

/-- An unsigned integer in decimal, or in hexadecimal with `0x` (R56). -/
def parseNumber : List Char → Option Nat
  | [] => none
  | c :: cs =>
    match c, cs with
    | '0', 'x' :: d :: ds => parseDigits hexDigit 16 0 (d :: ds)
    | _, _ => parseDigits decimalDigit 10 0 (c :: cs)

/-- The mnemonics of R56 and R57, in capital letters. -/
def textRsvd0 : List Char := ['R', 'S', 'V', 'D', '0']
def textSeed : List Char := ['S', 'E', 'E', 'D']
def textStep : List Char := ['S', 'T', 'E', 'P']
def textRun : List Char := ['R', 'U', 'N']
def textBlock : List Char := ['B', 'L', 'O', 'C', 'K']

/-- A command that takes no operand. -/
def withoutOperand (cmd : Source) : List (List Char) → Except AsmError (List Source)
  | [] => .ok [cmd]
  | _ :: _ => .error .unexpectedOperand

/-- A command that takes one operand. -/
def withOperand (cmd : Int → Source) : List (List Char) → Except AsmError (List Source)
  | [] => .error .missingOperand
  | [t] =>
    match parseNumber t with
    | some n => .ok [cmd n]
    | none => .error .badNumber
  | _ :: _ :: _ => .error .unexpectedOperand

/-- The command of a line's words; a blank line is nothing (R56). -/
def parseWords : List (List Char) → Except AsmError (List Source)
  | [] => .ok []
  | m :: operands =>
    if m = textSeed then withOperand .seed operands
    else if m = textStep then withoutOperand .step operands
    else if m = textRun then withoutOperand .run operands
    else if m = textRsvd0 then withoutOperand .rsvd0 operands
    else if m = textBlock then withOperand .block operands
    else .error .unknownMnemonic

/-- Two lists one after the other, where both are there; the first error otherwise. -/
def appendOk {α : Type} (a b : Except AsmError (List α)) : Except AsmError (List α) :=
  match a, b with
  | .ok xs, .ok ys => .ok (xs ++ ys)
  | .error e, _ => .error e
  | .ok _, .error e => .error e

/-- The command words of source commands, in order. -/
def assembleSources : List Source → Except AsmError (List CmdWord)
  | [] => .ok []
  | c :: cs => appendOk (assembleSource c) (assembleSources cs)

/-- The source commands of lines, one command per line, in order (R56). -/
def parseLines : List (List Char) → Except AsmError (List Source)
  | [] => .ok []
  | l :: ls => appendOk (parseWords (lineWords l)) (parseLines ls)

/-- The assembler: the command words of a text (R56, R57, R59). -/
def assemble (text : List Char) : Except AsmError (List CmdWord) :=
  match parseLines (splitAtChars (fun c => c == '\n') text) with
  | .ok cmds => assembleSources cmds
  | .error e => .error e

/-- The decimal digits of `n` in front of `after`, with at most `fuel` digits. -/
def decimalBefore : Nat → Nat → List Char → List Char
  | 0, _, after => after
  | fuel + 1, n, after =>
    let here := Char.ofNat (48 + n % 10) :: after
    if n < 10 then here else decimalBefore fuel (n / 10) here

/-- A seed in decimal: ten digits are enough for 32 bits. -/
def decimalText (n : Word) : List Char :=
  decimalBefore 10 n.toNat []

/-- The disassembler: it prints `STEP`, `RUN`, `RSVD0` without the ignored `arg` (R56); a seed in decimal (log 11). -/
def disassemble (c : CmdWord) : List Char :=
  match decode c with
  | .rsvd0 => textRsvd0
  | .seed n => textSeed ++ ' ' :: decimalText n
  | .step => textStep
  | .run => textRun

end Sys2Proof.Machine
end

