-- ==== Sys2Proof/Machine/Flags.lean ====
section
/-! DEFINITION. The status outputs (R18). There are no condition codes (R19): no command reads or writes a flag. -/

namespace Sys2Proof.Machine

/-- The code `ERR` holds for a cause (R131). -/
def Cause.code : Cause → BitVec 2
  | .eReserved => 1#2
  | .eOverrun => 2#2

/-- `busy`, the value of `BUSY` (R18). -/
def State.busyOut (s : State) : Bool := s.busy

/-- `done`: 1 if `CNT = W` (R18). -/
def State.doneOut (s : State) : Bool := decide (s.cnt.val = Config.quota)

/-- `err`: 1 if `ERR ≠ 0` (R18). -/
def State.errOut (s : State) : Bool := s.err.isSome

/-- `ecause`: the 2-bit code in `ERR`, 0 for "no fault" (R15, R18). -/
def State.ecauseOut (s : State) : BitVec 2 :=
  match s.err with
  | none => 0#2
  | some c => c.code

/-- `cmd_ready`: 1 if `BUSY = 0` (R18, R58). -/
def State.cmdReadyOut (s : State) : Bool := !s.busy

end Sys2Proof.Machine
end

