-- ==== Sys2Proof/Safety.lean ====
section
/-! DEFINITION. The invariants, the end of a run, and the relations between states that claims are stated with. -/

namespace Sys2Proof.Machine

/-- `k` steps one after the other, stopping at the first fault or refusal. -/
def steps : Nat → State → Host.Outcome State Fault Refusal
  | 0, s => .next s
  | k + 1, s =>
    match step s with
    | .next t => steps k t
    | .fault r => .fault r
    | .refused r => .refused r

/-- R20: `BUSY = 1` implies `CNT < W` and `ERR = 0`. (`CNT ≤ W` holds by the type of `cnt`.) -/
def State.Inv (s : State) : Prop :=
  s.busy = true → s.hasQuota ∧ s.err = none

/-- R12: `X ≥ M` only between a `SEED` and the next `Iterate()`, or after `Reset`. -/
def State.XInRange (s : State) : Prop :=
  0 < s.cnt.val → s.hasQuota → s.x.toNat < Config.modulus

/-- R31: every emitted word is below `M`. -/
def State.OutInRange (s : State) : Prop :=
  ∀ v ∈ s.out, v.toNat < Config.modulus

/-- R13, R32: while words of the current seed remain, `CNT` counts the words emitted since its `SEED`: there is a seed `n`
such that `OUT` ends in `x_1 .. x_CNT` of `n`, and `X` is `x_CNT`. -/
def State.Ledger (s : State) : Prop :=
  s.hasQuota → ∃ n before, s.out = before ++ wordsFrom s.cnt.val n ∧ s.x = iterated s.cnt.val n

/-- Ready to obey: quiescent (`BUSY = 0`), no fault (R58, R133). -/
abbrev State.Ready (s : State) : Prop := s.busy = false ∧ s.err = none

/-- A run has ended when every offered word has been accepted and `BUSY = 0` (R159). -/
abbrev State.Ended (s : State) : Prop := s.offers = [] ∧ s.busy = false

/-- The end state is good when, in addition, `ERR = 0` (R159). -/
abbrev State.GoodEnd (s : State) : Prop := s.Ended ∧ s.err = none

/-- No `Reset` falls in the next `k` steps. -/
abbrev State.NoResetFor (s : State) (k : Nat) : Prop := true ∉ s.resetLine.take k

/-- The host offers only seeds and runs, as a host that issues only `BLOCK n` commands does (R130). -/
def State.OnlySeedsAndRuns (s : State) : Prop :=
  ∀ c ∈ s.offers, (∃ n, decode c = .seed n) ∨ decode c = .run

/-- The same but for `X`. -/
def State.SameButX (s t : State) : Prop := s = { t with x := s.x }

/-- The same control state, inputs and number of emitted words: everything but the data `X` and the words of `OUT` (R117). -/
structure State.SameControl (s t : State) : Prop where
  cnt : s.cnt = t.cnt
  busy : s.busy = t.busy
  err : s.err = t.err
  emitted : s.out.length = t.out.length
  offers : s.offers = t.offers
  resetLine : s.resetLine = t.resetLine
  resetDraws : s.resetDraws = t.resetDraws

/-- The word a host that offers `c` without its ignored bits would offer: `arg` is kept for `SEED` and is 0 otherwise (R52). -/
def canonicalWord (c : CmdWord) : CmdWord :=
  if opField c = 1#2 then c else packFields (opField c) 0#32

end Sys2Proof.Machine
end

