-- ==== Sys2Proof/Certificates/Slice0/Obligations.lean ====
section
/-! DEFINITION. The statements for the provers, from the spec's numbered rules. -/

open Sys2Proof Sys2Proof.Machine

/-! ### Encoding (30_encoding.md) -/

/-- R55: each of the 2^34 words matches exactly one row of R51, the row of the command it decodes to, and the decoder is
R55's case distinction on `c[33:32]`. -/
def Obligations.DecodingIsTotalAndUnambiguous : Prop :=
  ∀ c : CmdWord,
    (opcodeRows.filter (rowMatches c)).length = 1 ∧
    (∀ row ∈ opcodeRows, rowMatches c row = true ↔ row.mnemonic = mnemonicOf (decode c)) ∧
    decode c =
      (if opField c = 0#2 then .rsvd0
       else if opField c = 1#2 then .seed (argField c)
       else if opField c = 2#2 then .step
       else .run)

/-- R50, R51, R52, R56: decoding the word of any command gives the command with its operand; the word is
`op * 2^32 + arg`; and encoding what a word decodes to gives the word back but for the `arg` bits that are ignored. -/
def Obligations.DecodeEncodeRoundTrip : Prop :=
  (∀ i : Instr, i.wellFormed = true →
    decode (encode i) = i ∧ (encode i).toNat = (opcodeOf i).toNat * 2 ^ 32 + (operandOf i).toNat) ∧
  (∀ c : CmdWord, encode (decode c) = canonicalWord c)

/-- R52: `arg` is the seed of `SEED` as it stands; for `STEP`, `RUN`, `RSVD0` every `arg` gives the same command, and the
assembler emits 0. -/
def Obligations.OperandIsUsedAsItStandsOrIgnored : Prop :=
  (∀ arg : Word,
    decode (packFields 0#2 arg) = .rsvd0 ∧ decode (packFields 1#2 arg) = .seed arg ∧
    decode (packFields 2#2 arg) = .step ∧ decode (packFields 3#2 arg) = .run ∧
    (∀ s : State, s.Ready → ∃ t, exec (.seed arg) s = .next t ∧ t.x = arg)) ∧
  argField (encode .rsvd0) = 0#32 ∧ argField (encode .step) = 0#32 ∧ argField (encode .run) = 0#32

/-- 95_test_vectors.md section 2.2: words written out from the encoding decode to the commands they stand for. -/
def Obligations.WordsOfTheSpecDecode : Prop :=
  decode 0x000000000#34 = .rsvd0 ∧ decode 0x0FFFFFFFF#34 = .rsvd0 ∧
  decode 0x10000018F#34 = .seed 399#32 ∧ decode 0x1FFFFFFFB#34 = .seed 4294967291#32 ∧
  decode 0x200000000#34 = .step ∧ decode 0x212345678#34 = .step ∧
  decode 0x300000000#34 = .run ∧ decode 0x3FFFFFFFF#34 = .run

/-- R59: the assembler encodes a seed exactly when it fits in 32 bits, rejects every other one, and never reduces it. -/
def Obligations.SeedOutside32BitsIsRejected : Prop :=
  ∀ n : Int,
    (0 ≤ n ∧ n < 2 ^ 32 →
      ∃ w, assembleSource (.seed n) = .ok [w] ∧ opField w = 1#2 ∧ ((argField w).toNat : Int) = n) ∧
    (¬(0 ≤ n ∧ n < 2 ^ 32) →
      assembleSource (.seed n) = .error .seedOutOfRange ∧ assembleSource (.block n) = .error .seedOutOfRange)

/-- R57: `BLOCK n` expands to the word of `SEED n`, `0x1_0000_0000 + n`, then the word of `RUN`, `0x3_0000_0000`. -/
def Obligations.BlockExpandsToSeedThenRun : Prop :=
  ∀ n : Nat, n < 2 ^ 32 →
    ∃ w, assembleSource (.block n) = .ok [w, 0x300000000#34] ∧ w.toNat = 0x100000000 + n ∧
      decode w = .seed (BitVec.ofNat 32 n) ∧ decode 0x300000000#34 = .run

/-- R56: assembling what the disassembler prints for a word gives the word back but for the ignored `arg` bits. The text
of a seed (decimal) is the model's choice, log 11. -/
def Obligations.AssembleAfterDisassemble : Prop :=
  ∀ c : CmdWord, assemble (disassemble c) = .ok [canonicalWord c]

/-- R56: `;` begins a comment that runs to the end of the line: nothing after it matters. -/
def Obligations.CommentsAreIgnored : Prop :=
  ∀ line comment : List Char, lineWords (line ++ ';' :: comment) = lineWords line

/-! ### The modular multiplier (40_modmul.md) -/

/-- R72, R74: `f(x)` is the exact remainder of the exact product, below `M`, with the quotient of R72. -/
def Obligations.ModmulIsTheExactRemainder : Prop :=
  ∀ x : Word,
    (modmul x).toNat = (x.toNat * 1815976680) % 4294967291 ∧ (modmul x).toNat ≤ 4294967290 ∧
    (modmul x).toNat = x.toNat * 1815976680 - (x.toNat * 1815976680) / 4294967291 * 4294967291

/-- R73: the product is at most `0x6C3D9AE793C26518` and needs 63 bits; a 64-bit intermediate, unsigned or signed, holds
it; a product truncated to 32 bits gives a different function. -/
def Obligations.ProductNeedsSixtyThreeBits : Prop :=
  (∀ x : Word,
    product x ≤ 7799560449082680600 ∧ product x < 2 ^ 63 ∧
    (x.setWidth 64 * BitVec.ofNat 64 Config.multiplier).toNat = x.toNat * 1815976680 ∧
    (x.setWidth 64 * BitVec.ofNat 64 Config.multiplier).toInt = (x.toNat * 1815976680 : Nat) ∧
    modmul64 x = modmul x) ∧
  (∃ x : Word, product x = 7799560449082680600 ∧ 2 ^ 62 ≤ product x) ∧
  (∃ x : Word, modmulTruncated x ≠ modmul x)

/-- R82: the divider-free reduction gives `f(x)` for every 32-bit `x`, within the bounds R82 states for its steps; and the
steps R82 works out for the largest input. -/
def Obligations.FoldingEqualsModmul : Prop :=
  (∀ x : Word,
    product x < 2 ^ 63 ∧ product x / 2 ^ 32 ≤ 1815976679 ∧
    fold5 (product x) ≤ 13374850690 ∧ fold5 (product x) / 2 ^ 32 ≤ 3 ∧
    fold5 (fold5 (product x)) ≤ 2 ^ 32 + 14 ∧
    subtractOnce (fold5 (fold5 (product x))) < 4294967291 ∧
    modmulFolded x = modmul x) ∧
  product 4294967295#32 / 2 ^ 32 = 1815976679 ∧ product 4294967295#32 % 2 ^ 32 = 2478990616 ∧
  fold5 (product 4294967295#32) = 11558874011 ∧ fold5 11558874011 = 2968939429 ∧
  modmul 4294967295#32 = 2968939429#32

/-- R78: for the five inputs at or above `M`, `f(x) = f(x − M)`, and the seeds `n` and `n − M` give the same words. -/
def Obligations.SeedsAboveTheModulusAlias : Prop :=
  ∀ x : Word, 4294967291 ≤ x.toNat →
    modmul x = modmul (x - 4294967291#32) ∧ ∀ k, wordsFrom k x = wordsFrom k (x - 4294967291#32)

/-- R79, R76: below `M` the function is injective, 0 is its only fixed point, and it gives 0 exactly for multiples of
`M`; so a seed gives only zero words when `n mod M = 0` and no zero word otherwise. -/
def Obligations.ModmulPermutesBelowTheModulus : Prop :=
  (∀ x y : Word, x.toNat < 4294967291 → y.toNat < 4294967291 → modmul x = modmul y → x = y) ∧
  (∀ x : Word, modmul x = x ↔ x = 0#32) ∧
  (∀ x : Word, modmul x = 0#32 ↔ x.toNat % 4294967291 = 0) ∧
  (∀ (n : Word) (k : Nat), n.toNat % 4294967291 = 0 → wordsFrom k n = List.replicate k 0#32) ∧
  (∀ (n : Word) (k : Nat), n.toNat % 4294967291 ≠ 0 → 0#32 ∉ wordsFrom k n)

/-- R79: for a seed with `n mod M ≠ 0` the sequence `x_1, x_2, ...` has period `M − 1`, so the 125 words of a block are
pairwise different and differ from `n mod M`. -/
def Obligations.SequenceHasPeriodModulusMinusOne : Prop :=
  ∀ n : Word, n.toNat % 4294967291 ≠ 0 →
    (∀ j k : Nat, iterated (j + 1) n = iterated (k + 1) n ↔ j % 4294967290 = k % 4294967290) ∧
    (wordsFrom Config.quota n).Nodup ∧
    BitVec.ofNat 32 (n.toNat % 4294967291) ∉ wordsFrom Config.quota n

/-- R80: after `k ≥ 1` iterations from seed `n`, `x_k = (n * A^k) mod M`; for the last word of a block `A^125 mod M` is
3416151828. (`x_0` is the seed itself, which is not reduced: R91.) -/
def Obligations.IterationHasAClosedForm : Prop :=
  (∀ (n : Word) (k : Nat), 1 ≤ k → (iterated k n).toNat = n.toNat * 1815976680 ^ k % 4294967291) ∧
  1815976680 ^ 125 % 4294967291 = 3416151828 ∧
  (∀ n : Word, (iterated 125 n).toNat = n.toNat * 3416151828 % 4294967291)

/-! ### The commands (41_state_register.md, 42_unroller.md) -/

/-- R91: `SEED n`, accepted by a ready engine, loads `X` with `n` unreduced and sets `CNT` to 0, for every `n`; nothing else
changes, `done` and `busy` are 0, and its word is `0x1_0000_0000 + n`. -/
def Obligations.SeedLoadsTheStateRegister : Prop :=
  ∀ (n : Word) (s : State), s.Ready →
    (encode (.seed n)).toNat = 0x100000000 + n.toNat ∧
    ∃ t, exec (.seed n) s = .next t ∧ t = { s with x := n, cnt := 0 } ∧ t.doneOut = false ∧ t.busyOut = false

/-- R92, R90: `STEP` with `CNT < W`, accepted by a ready engine: `X` becomes `f(X)`, that new value is emitted, `CNT` grows
by 1, `done` becomes 1 exactly when the new `CNT` is `W`, and nothing else changes. -/
def Obligations.StepEmitsOneWord : Prop :=
  ∀ (s : State) (q : s.hasQuota), s.Ready →
    ∃ t, exec .step s = .next t ∧
      t = { s with
            x := modmul s.x
            out := s.out ++ [modmul s.x]
            cnt := ⟨s.cnt.val + 1, Nat.succ_lt_succ q⟩ } ∧
      t.x.toNat = s.x.toNat * 1815976680 % 4294967291 ∧
      (t.doneOut = true ↔ s.cnt.val + 1 = 125)

/-- R92, R131: `STEP` with `CNT = W`, the quota used up or no `SEED` since reset, raises `E_OVERRUN` and does nothing else. -/
def Obligations.StepAtQuotaOverruns : Prop :=
  ∀ s : State, s.Ready → s.cnt.val = 125 →
    ∃ t, exec .step s = .next t ∧ t = { s with err := some .eOverrun } ∧ t.errOut = true ∧ t.ecauseOut = 2#2

/-- R93: every word with `op = 0` is `RSVD0`; accepted by a ready engine it raises `E_RESERVED` and does nothing else; with
a fault already there nothing happens and the earlier cause stays. -/
def Obligations.ReservedCommandFaults : Prop :=
  (∀ arg : Word, decode (packFields 0#2 arg) = .rsvd0) ∧
  (∀ s : State, s.Ready →
    ∃ t, exec .rsvd0 s = .next t ∧ t = { s with err := some .eReserved } ∧ t.errOut = true ∧ t.ecauseOut = 1#2) ∧
  (∀ s : State, s.err ≠ none → exec .rsvd0 s = .next s)

/-- R110: `RUN`, accepted by a ready engine, sets `BUSY` when `CNT < W` and does nothing at all when `CNT = W`; it emits
nothing itself and is no fault. -/
def Obligations.RunStartsTheUnroller : Prop :=
  ∀ s : State, s.Ready →
    (s.cnt.val < 125 → exec .run s = .next { s with busy := true }) ∧
    (s.cnt.val = 125 → exec .run s = .next s)

/-- The frame of every command, in every state, faulted ones too: `X` and `CNT` change only by `SEED` and `STEP`, `BUSY` only
by `RUN`, `ERR` only by `RSVD0` and `STEP`, `OUT` only by `STEP`, which can only append the new `X`; the host's inputs never.
At `BUSY = 1`, where no command is accepted (R58), it is the model's choice (log 7). -/
def Obligations.CommandFrame : Prop :=
  ∀ (i : Instr) (s t : State), exec i s = .next t →
    (i = .rsvd0 ∨ i = .run → t.x = s.x ∧ t.cnt = s.cnt) ∧
    (i ≠ .run → t.busy = s.busy) ∧
    (i ≠ .rsvd0 → i ≠ .step → t.err = s.err) ∧
    (i ≠ .step → t.out = s.out) ∧
    (i = .step → t.out = s.out ∨ t.out = s.out ++ [t.x]) ∧
    t.offers = s.offers ∧ t.resetLine = s.resetLine ∧ t.resetDraws = s.resetDraws

/-- R111: `Iter` is enabled exactly when `BUSY = 1` (and no `Reset` falls here, R117); it performs one iteration, emits one
word, clears `BUSY` exactly when `CNT + 1 = W`, and accepts no command. -/
def Obligations.IterEmitsOneWordAndEndsTheLoop : Prop :=
  (∀ s : State, nextMove s = .iter ↔ s.resetActive = false ∧ s.busy = true) ∧
  (∀ (s : State) (q : s.hasQuota), s.resetActive = false → s.busy = true →
    step s = .next
      { s with
        x := modmul s.x
        out := s.out ++ [modmul s.x]
        cnt := ⟨s.cnt.val + 1, Nat.succ_lt_succ q⟩
        busy := decide (s.cnt.val + 1 ≠ 125)
        resetLine := s.resetLine.tail })

/-- R58: when a word is on offer, `BUSY = 0` and no `Reset` falls here, the step is the decoded command's `exec`, with the
word taken from the host's words (it acts once) and one sample of the reset input gone by. -/
def Obligations.StepRunsTheDecodedCommand : Prop :=
  ∀ (s : State) (c : CmdWord) (rest : List CmdWord),
    s.offers = c :: rest → s.busy = false → s.resetActive = false →
      step s = exec (decode c) { s with offers := rest, resetLine := s.resetLine.tail }

/-- R117 (b), R142: a quiescent engine that is offered nothing stays as it is. -/
def Obligations.QuiescentEngineStays : Prop :=
  ∀ s : State, s.offers = [] → s.busy = false → s.resetActive = false →
    step s = .next { s with resetLine := s.resetLine.tail }

/-! ### Faults (60_exceptions.md) -/

/-- R131, R132: at the acceptance of a command (`BUSY = 0`) by an engine without a fault, `E_RESERVED` (code 1) is raised by
`RSVD0`, always, and `E_OVERRUN` (code 2) by `STEP`, exactly when `CNT = W`, and nothing else is raised; `Iter` raises nothing;
fault entry writes the code into `ERR` and changes nothing else (`BUSY` is 0 already); then `err = 1` and `ecause` is the code. -/
def Obligations.FaultEntryWritesOnlyErr : Prop :=
  (∀ (i : Instr) (s t : State), s.Ready → exec i s = .next t →
    (t.err = some .eReserved ↔ i = .rsvd0) ∧
    (t.err = some .eOverrun ↔ i = .step ∧ s.cnt.val = 125) ∧
    (t.err ≠ none → t = { s with err := t.err } ∧ t.errOut = true) ∧
    (t.err = some .eReserved → t.ecauseOut = 1#2) ∧
    (t.err = some .eOverrun → t.ecauseOut = 2#2)) ∧
  (∀ s t : State, iter s = .next t → t.err = s.err)

/-- R133: a faulted engine (with R20's invariant) is quiescent and ready to accept, and discards every command: the step takes
the word on offer and changes nothing else; no command changes a faulted state. -/
def Obligations.FaultedEngineIsInert : Prop :=
  ∀ s : State, s.err ≠ none → s.Inv →
    s.busy = false ∧ s.cmdReadyOut = true ∧ (∀ i, exec i s = .next s) ∧
    (s.resetActive = false →
      step s = .next { s with offers := s.offers.tail, resetLine := s.resetLine.tail })

/-- R134: the only way out of a fault is `Reset`, which loses the seed; a fault keeps its first cause until then. -/
def Obligations.OnlyResetClearsAFault : Prop :=
  ∀ (s t : State) (c : Cause), s.err = some c → step s = .next t →
    (s.resetActive = false ∧ t.err = some c) ∨
    (s.resetActive = true ∧ t.err = none ∧ t.cnt.val = 125)

/-- R130: a host that offers only seeds and runs (as `BLOCK n` commands are) never causes a fault, however many steps are taken
and wherever a `Reset` falls. -/
def Obligations.SeedsAndRunsNeverFault : Prop :=
  ∀ s : State, s.Inv → s.err = none → s.OnlySeedsAndRuns →
    ∀ k, ∃ t, steps k s = .next t ∧ t.err = none

/-- R136: whichever of a `Reset` and a coincident `Iter` or accepted command (`BUSY = 0`) is ordered first, the reset state is
the same but for the words the other step emitted; `X`, which `Reset` leaves unspecified (R23), is not compared. -/
def Obligations.ResetAbsorbsACoincidentStep : Prop :=
  (∀ s t : State, iter s = .next t →
    (resetEngine t).SameButX { resetEngine s with out := t.out } ∧ t.out = s.out ++ [modmul s.x]) ∧
  (∀ (i : Instr) (s t : State), s.busy = false → exec i s = .next t →
    (resetEngine t).SameButX { resetEngine s with out := t.out } ∧
    (t.out = s.out ∨ t.out = s.out ++ [modmul s.x]))

/-! ### Reset (10_state.md, 70_reset_and_hazards.md) -/

/-- R23 and R17: what the state after reset holds where the spec gives a value; nothing is said of `X`. -/
def Obligations.ResetStateHoldsTheSpecsValues : Prop :=
  State.reset.cnt.val = 125 ∧ State.reset.busy = false ∧ State.reset.err = none ∧ State.reset.out = [] ∧
  State.reset.busyOut = false ∧ State.reset.doneOut = true ∧ State.reset.errOut = false ∧
  State.reset.ecauseOut = 0#2 ∧ State.reset.cmdReadyOut = true

/-- R150: `Reset` is enabled in every state; it sets `CNT` to `W`, `BUSY` and `ERR` to 0, leaves `OUT` as it is, and neither
accepts nor loses a word on offer; no other step clears `ERR`. Nothing is said of `X`, which it leaves unspecified. -/
def Obligations.ResetStepSetsTheSpecsValues : Prop :=
  (∀ s : State, s.resetActive = true →
    ∃ t, step s = .next t ∧ t.cnt.val = 125 ∧ t.busy = false ∧ t.err = none ∧ t.out = s.out ∧ t.offers = s.offers ∧
      t.busyOut = false ∧ t.doneOut = true ∧ t.errOut = false ∧ t.ecauseOut = 0#2 ∧ t.cmdReadyOut = true) ∧
  (∀ s t : State, step s = .next t → s.err ≠ none → t.err = none → s.resetActive = true)

/-- R23, R155: the value of `X` after reset (any state with `CNT = W` and R20's invariant) is never observable: two machines that
differ only in it emit the same words and show the same status outputs for ever. -/
def Obligations.UnspecifiedXIsNeverObserved : Prop :=
  ∀ (s t : State) (k : Nat), s.SameButX t → s.cnt.val = 125 → s.Inv →
    ∃ s' t', steps k s = .next s' ∧ steps k t = .next t' ∧
      s'.out = t'.out ∧ s'.busyOut = t'.busyOut ∧ s'.doneOut = t'.doneOut ∧ s'.errOut = t'.errOut ∧
      s'.ecauseOut = t'.ecauseOut ∧ s'.cmdReadyOut = t'.cmdReadyOut

/-! ### Invariants -/

/-- R20 and the invariants of R12, R31, R13 hold at reset. -/
def Obligations.InvariantsHoldAtReset : Prop :=
  State.reset.Inv ∧ State.reset.XInRange ∧ State.reset.OutInRange ∧ State.reset.Ledger

/-- R20: `CNT ≤ W` and `BUSY = 1 → CNT < W ∧ ERR = 0` hold after reset, after every `Reset` step, and every step keeps them. -/
def Obligations.EveryStepKeepsTheControlInvariant : Prop :=
  State.reset.Inv ∧ (∀ s : State, (resetEngine s).Inv) ∧
  (∀ s t : State, s.Inv → step s = .next t → t.Inv ∧ t.cnt.val ≤ 125)

/-- R12, R31: every step keeps `X < M` strictly inside a block and every emitted word below `M`; and `X ≥ M` comes only from a
`SEED` or a `Reset`. -/
def Obligations.EveryStepKeepsTheRanges : Prop :=
  ∀ s t : State, step s = .next t →
    (s.XInRange → t.XInRange) ∧ (s.OutInRange → t.OutInRange) ∧
    (4294967291 ≤ t.x.toNat → t.x = s.x ∨ s.resetActive = true ∨ t.cnt.val = 0)

/-- R13, R32: every step keeps the ledger: while the quota is not used up there is a seed `n` such that `OUT` ends in the `CNT`
words `x_1 .. x_CNT` of `n` and `X` is `x_CNT`; and the step that uses the quota up leaves all `W` words there. -/
def Obligations.EveryStepKeepsTheLedger : Prop :=
  ∀ s t : State, s.Ledger → step s = .next t →
    t.Ledger ∧
    (s.hasQuota → ¬t.hasQuota → s.resetActive = false →
      ∃ n before, t.out = before ++ wordsFrom 125 n ∧ t.x = iterated 125 n)

/-- R117, R142, R20: from every state with R20's invariant the machine answers a next state, for any number of steps: nothing the
hardware does stops the model. -/
def Obligations.TheMachineNeverStops : Prop :=
  ∀ (s : State) (k : Nat), s.Inv → ∃ t, steps k s = .next t ∧ t.Inv

/-- R17, R31, R36, R39: a step leaves `OUT` as it is or appends exactly one word, which is `f(X)`, the new `X`, with `CNT` grown
by 1; no step removes or changes a word. -/
def Obligations.OutputOnlyGrowsByTheNewState : Prop :=
  ∀ s t : State, step s = .next t →
    t.out = s.out ∨
    (t.out = s.out ++ [t.x] ∧ t.x = modmul s.x ∧ s.cnt.val < 125 ∧ t.cnt.val = s.cnt.val + 1)

/-- R117 (c): no data value influences control: two states with the same control state and inputs, whatever `X` and the words
emitted, take steps to states with the same control state, having emitted as many words. -/
def Obligations.ControlIgnoresData : Prop :=
  ∀ s t s' : State, s.SameControl t → step s = .next s' → ∃ t', step t = .next t' ∧ s'.SameControl t'

/-- R18: the five status outputs as functions of the state; by R20, `done = 1` implies `busy = 0`; `done`
reads 1 after a `Reset`. -/
def Obligations.StatusOutputsAreFunctionsOfState : Prop :=
  ∀ s : State,
    s.busyOut = s.busy ∧ (s.doneOut = true ↔ s.cnt.val = 125) ∧ (s.errOut = true ↔ s.err ≠ none) ∧
    (s.ecauseOut = 0#2 ↔ s.err = none) ∧ (s.ecauseOut = 1#2 ↔ s.err = some .eReserved) ∧
    (s.ecauseOut = 2#2 ↔ s.err = some .eOverrun) ∧ s.ecauseOut ≠ 3#2 ∧
    (s.cmdReadyOut = true ↔ s.busy = false) ∧
    (s.Inv → s.doneOut = true → s.busyOut = false) ∧
    (resetEngine s).doneOut = true

/-! ### Whole runs of the unroller -/

/-- R112: a busy engine with `CNT = c0` takes, if no `Reset` intervenes, exactly `W − c0` `Iter` steps: `BUSY` stays 1 and `CNT`
grows by 1 at each before the last, and the last clears `BUSY` and leaves `CNT = W`; the words on offer are held throughout. -/
def Obligations.EveryRunEndsAfterTheRemainingWords : Prop :=
  ∀ s : State, s.busy = true → s.Inv → s.NoResetFor (125 - s.cnt.val) →
    (∀ j, j < 125 - s.cnt.val →
      ∃ t, steps j s = .next t ∧ t.busy = true ∧ t.cnt.val = s.cnt.val + j ∧ t.offers = s.offers) ∧
    (∃ t, steps (125 - s.cnt.val) s = .next t ∧ t.busy = false ∧ t.cnt.val = 125 ∧ t.offers = s.offers)

/-- R113: `RUN` and the `Iter` steps it causes emit the `k = W − c0` words that remain, and `k` `STEP` commands from the same
state reach the same state with the same `OUT`; `X` ends as `f^k(x)`, which is `(x * A^k) mod M` when `k > 0`. At `c0 = W` that is
no word and the same `X`. -/
def Obligations.RunIsStepUnrolled : Prop :=
  ∀ (s : State) (k : Nat) (rest : List CmdWord), s.Ready → s.cnt.val + k = 125 → s.NoResetFor (k + 1) →
    steps (k + 1) { s with offers := encode .run :: rest } = .next
      { s with
        x := iterated k s.x
        cnt := Count.spent
        out := s.out ++ wordsFrom k s.x
        offers := rest
        resetLine := s.resetLine.drop (k + 1) } ∧
    steps k { s with offers := List.replicate k (encode .step) ++ rest } = .next
      { s with
        x := iterated k s.x
        cnt := Count.spent
        out := s.out ++ wordsFrom k s.x
        offers := rest
        resetLine := s.resetLine.drop k } ∧
    (0 < k → iterated k s.x = closedForm s.x k)

/-- R114: `BLOCK n`, from any quiescent state with `ERR = 0`, appends exactly the 125 words `(n * A^k) mod M`, `k = 1 .. 125`, and
leaves `X = x_125`, `CNT = 125`, `BUSY = 0`, `ERR = 0`, whatever came before; those words in the host's buffer, behind the header,
are the 512 bytes of block `n`. -/
def Obligations.BlockEmitsItsWords : Prop :=
  ∀ (n : Word) (s : State) (rest : List CmdWord), s.Ready → s.offers = blockCommands n ++ rest → s.NoResetFor 127 →
    steps 127 s = .next
      { s with
        x := closedForm n 125
        cnt := Count.spent
        out := s.out ++ (List.range 125).map (fun k => closedForm n (k + 1))
        offers := rest
        resetLine := s.resetLine.drop 127 } ∧
    (∀ buf : List Byte, buf.length = 512 →
      fillBlock buf n ((List.range 125).map (fun k => closedForm n (k + 1))) = blockBytes n ∧
      (blockBytes n).length = 512)

/-- R39, R40, R114: blocks offered one after the other, for any seeds in any order, emit the words of each seed in that order,
and each block's words depend on its own seed only; with nothing else on offer the run has then ended in a good state (R159). -/
def Obligations.BlocksAreIndependent : Prop :=
  ∀ (ns : List Word) (s : State) (rest : List CmdWord), s.Ready → s.offers = ns.flatMap blockCommands ++ rest →
    s.NoResetFor (127 * ns.length) →
    ∃ t, steps (127 * ns.length) s = .next t ∧ t.Ready ∧ t.offers = rest ∧
      t.out = s.out ++ ns.flatMap (wordsFrom 125) ∧ (rest = [] → t.GoodEnd)

/-- R21: a `SEED` erases the past: two ready engines that get the same seed word first and the same inputs after it emit the same
words from then on, whatever their `X`, `CNT` and `OUT` were, and agree in `CNT`, `BUSY` and `ERR`. They agree in `X` too when no
`Reset` fell or `CNT < W`; nothing is said of the `X` a `Reset` leaves (R23), and no free value (log 2) is compared, since
`resetDraws`, the model's own field, may differ. -/
def Obligations.NoStateIsCarriedAcrossASeed : Prop :=
  ∀ (n : Word) (s t : State) (rest : List CmdWord) (k : Nat), s.Ready → t.Ready →
    s.offers = encode (.seed n) :: rest → t.offers = s.offers → t.resetLine = s.resetLine →
    ∃ s' t' words, steps (k + 1) s = .next s' ∧ steps (k + 1) t = .next t' ∧
      s'.out = s.out ++ words ∧ t'.out = t.out ++ words ∧
      t' = { s' with x := t'.x, out := t'.out, resetDraws := t'.resetDraws } ∧
      (s.NoResetFor (k + 1) ∨ s'.cnt.val < 125 → t'.x = s'.x)

/-! ### The block buffer (20_memory.md) -/

/-- R33: `MemWrite(a, 4, v)` puts byte `j` of `v`, `v[8j+7:8j]`, at address `a + j` and changes no other byte; the bytes of a word,
lowest address first, are least significant first. -/
def Obligations.MemWriteIsLittleEndian : Prop :=
  (∀ (buf : List Byte) (a : Nat) (v : Word), a + 4 ≤ buf.length →
    (memWrite buf a v).length = buf.length ∧
    (∀ j, j < 4 → (memWrite buf a v)[a + j]? = some (v.extractLsb' (8 * j) 8)) ∧
    (∀ b, b < a ∨ a + 4 ≤ b → (memWrite buf a v)[b]? = buf[b]?)) ∧
  (∀ v : Word, v.toNat =
    (wordByte v 0).toNat + 256 * (wordByte v 1).toNat + 65536 * (wordByte v 2).toNat + 16777216 * (wordByte v 3).toNat) ∧
  wordBytes 1815976680#32 = [0xE8#8, 0x9A#8, 0x3D#8, 0x6C#8]

/-- R32, R34, R35: the host's buffer of 512 bytes, whatever it held, becomes tag, index and the `W` words of the block in order,
each at an offset that is a multiple of 4, the last ending at byte 511; a file of `N` blocks has `512 * N` bytes (R34). -/
def Obligations.BlockBufferHasTheSpecsLayout : Prop :=
  (∀ (buf : List Byte) (n : Word) (words : List Word), buf.length = 512 → words.length = 125 →
    fillBlock buf n words =
      [0x68#8, 0x65#8, 0x6C#8, 0x6F#8, 0x64#8, 0x61#8, 0x74#8, 0x61#8] ++ wordBytes n ++ words.flatMap wordBytes) ∧
  (∀ k, k < 125 → wordOffset k = 12 + 4 * k ∧ wordOffset k % 4 = 0 ∧ wordOffset k + 3 ≤ 511) ∧
  wordOffset 0 = 12 ∧ wordOffset 124 + 3 = 511 ∧
  (∀ count : Nat, (fileBytes count).length = 512 * count) ∧
  (fileBytes Config.fileBlocks).length = 204800
end

