-- ==== Sys2Proof/Laws/Block.lean ====
section
/-! SUPPORT. Lengths in the block buffer, and the pieces of a text without separators. -/

namespace Sys2Proof.Laws

open Sys2Proof.Machine

/-- A word is four bytes (R36). -/
theorem wordBytes_length (v : Word) : (wordBytes v).length = 4 := rfl

/-- The bytes of words are four per word. -/
theorem flatMap_wordBytes_length (ws : List Word) : (ws.flatMap wordBytes).length = 4 * ws.length := by
  induction ws with
  | nil => rfl
  | cons v ws ih =>
    rw [List.flatMap_cons, List.length_append, wordBytes_length, ih, List.length_cons]
    omega

/-- A write to the buffer keeps its length. -/
theorem memWrite_length (buf : List Byte) (addr : Nat) (v : Word) : (memWrite buf addr v).length = buf.length := by
  simp [memWrite]

/-- A text without separators is one piece. -/
theorem splitAtChars_of_none (separates : Char → Bool) (text : List Char) (h : ∀ c ∈ text, separates c = false) :
    splitAtChars separates text = [text] := by
  induction text with
  | nil => rfl
  | cons c cs ih => simp [splitAtChars, h c (by simp), ih fun d hd => h d (by simp [hd])]

end Sys2Proof.Laws
end

