-- ==== Sys2Proof/Laws/Decode.lean ====
section
/-! SUPPORT. The fields of a command word, the decoder by its `op`, and that every command is well formed. -/

namespace Sys2Proof.Laws

/-- Bit `i` of a packed word: from `arg` below bit 32, from `op` above. -/
theorem getLsbD_packFields (op : BitVec 2) (arg : Word) (i : Nat) :
    (packFields op arg).getLsbD i = if i < 32 then arg.getLsbD i else op.getLsbD (i - 32) :=
  BitVec.getLsbD_append

/-- The `op` of a packed word. -/
theorem opField_packFields (op : BitVec 2) (arg : Word) : opField (packFields op arg) = op := by
  unfold opField
  ext i hi
  simp [getLsbD_packFields, BitVec.getLsbD_eq_getElem hi]

/-- The `arg` of a packed word. -/
theorem argField_packFields (op : BitVec 2) (arg : Word) : argField (packFields op arg) = arg := by
  unfold argField
  ext i hi
  simp [getLsbD_packFields, hi]

/-- `op` has four values. -/
theorem op_cases (op : BitVec 2) : op = 0#2 ∨ op = 1#2 ∨ op = 2#2 ∨ op = 3#2 := by
  revert op
  decide

theorem decode_of_op0 {c : CmdWord} (h : opField c = 0#2) : decode c = .rsvd0 := by
  simp [decode, h]

theorem decode_of_op1 {c : CmdWord} (h : opField c = 1#2) : decode c = .seed (argField c) := by
  simp [decode, h]

theorem decode_of_op2 {c : CmdWord} (h : opField c = 2#2) : decode c = .step := by
  simp [decode, h]

theorem decode_of_op3 {c : CmdWord} (h : opField c = 3#2) : decode c = .run := by
  simp [decode, h]

/-- Every command is well formed: its operand is 32 bits wide by type (R59). -/
theorem wellFormed_all (i : Instr) : i.wellFormed = true := by
  cases i with
  | seed n =>
    have := n.isLt
    simp only [Instr.wellFormed, seedFits, Bool.and_eq_true, decide_eq_true_eq]
    omega
  | rsvd0 => rfl
  | step => rfl
  | run => rfl

end Sys2Proof.Laws
end

