-- ==== Sys2Proof/Laws/Modmul.lean ====
section
/-! SUPPORT. The multiplier's value as a natural number, and the sequence of states. -/

namespace Sys2Proof.Laws

open Sys2Proof.Machine

/-- The modulus fits in 32 bits and is not zero (R70). -/
theorem modulus_pos : 0 < Config.modulus := by decide

/-- A remainder modulo `M` fits in 32 bits (R74). -/
theorem toNat_ofNat_mod (k : Nat) : (BitVec.ofNat 32 (k % Config.modulus)).toNat = k % Config.modulus := by
  rw [BitVec.toNat_ofNat]
  exact Nat.mod_eq_of_lt (Nat.lt_trans (Nat.mod_lt k modulus_pos) (by decide))

/-- `f` as a natural number: nothing is cut off. -/
theorem modmul_toNat (x : Word) : (modmul x).toNat = x.toNat * Config.multiplier % Config.modulus := by
  rw [Nat.mul_comm]
  exact toNat_ofNat_mod _

/-- One iteration more, at the front. -/
theorem iterated_front (k : Nat) (x : Word) : iterated (k + 1) x = iterated k (modmul x) := by
  simp only [iterated]

/-- One iteration more, at the end. -/
theorem iterated_succ (k : Nat) (x : Word) : iterated (k + 1) x = modmul (iterated k x) := by
  induction k generalizing x with
  | zero => simp only [iterated]
  | succ k ih => rw [iterated_front, ih, ← iterated_front]

/-- The words of `k` iterations are `k`. -/
theorem wordsFrom_length (k : Nat) (x : Word) : (wordsFrom k x).length = k := by
  induction k generalizing x with
  | zero => rfl
  | succ k ih => simp [wordsFrom, ih]

/-- One word more, at the end. -/
theorem wordsFrom_succ (k : Nat) (x : Word) : wordsFrom (k + 1) x = wordsFrom k x ++ [iterated (k + 1) x] := by
  induction k generalizing x with
  | zero => simp only [wordsFrom, iterated, List.nil_append]
  | succ k ih => rw [wordsFrom, ih (modmul x), ← List.cons_append, ← iterated_front, wordsFrom]

end Sys2Proof.Laws
end

