-- ==== Sys2Proof/Laws/State.lean ====
section
/-! SUPPORT. One lemma per field per update of State, each true by rfl. -/

namespace Sys2Proof.Machine

@[simp] theorem State.setX_x (s : State) (v : Word) : (s.setX v).x = v := rfl
@[simp] theorem State.setX_cnt (s : State) (v : Word) : (s.setX v).cnt = s.cnt := rfl
@[simp] theorem State.setX_busy (s : State) (v : Word) : (s.setX v).busy = s.busy := rfl
@[simp] theorem State.setX_err (s : State) (v : Word) : (s.setX v).err = s.err := rfl
@[simp] theorem State.setX_out (s : State) (v : Word) : (s.setX v).out = s.out := rfl
@[simp] theorem State.setX_offers (s : State) (v : Word) : (s.setX v).offers = s.offers := rfl
@[simp] theorem State.setX_resetLine (s : State) (v : Word) : (s.setX v).resetLine = s.resetLine := rfl
@[simp] theorem State.setX_resetDraws (s : State) (v : Word) : (s.setX v).resetDraws = s.resetDraws := rfl

@[simp] theorem State.setCnt_x (s : State) (k : Count) : (s.setCnt k).x = s.x := rfl
@[simp] theorem State.setCnt_cnt (s : State) (k : Count) : (s.setCnt k).cnt = k := rfl
@[simp] theorem State.setCnt_busy (s : State) (k : Count) : (s.setCnt k).busy = s.busy := rfl
@[simp] theorem State.setCnt_err (s : State) (k : Count) : (s.setCnt k).err = s.err := rfl
@[simp] theorem State.setCnt_out (s : State) (k : Count) : (s.setCnt k).out = s.out := rfl
@[simp] theorem State.setCnt_offers (s : State) (k : Count) : (s.setCnt k).offers = s.offers := rfl
@[simp] theorem State.setCnt_resetLine (s : State) (k : Count) : (s.setCnt k).resetLine = s.resetLine := rfl
@[simp] theorem State.setCnt_resetDraws (s : State) (k : Count) : (s.setCnt k).resetDraws = s.resetDraws := rfl

@[simp] theorem State.setBusy_x (s : State) (b : Bool) : (s.setBusy b).x = s.x := rfl
@[simp] theorem State.setBusy_cnt (s : State) (b : Bool) : (s.setBusy b).cnt = s.cnt := rfl
@[simp] theorem State.setBusy_busy (s : State) (b : Bool) : (s.setBusy b).busy = b := rfl
@[simp] theorem State.setBusy_err (s : State) (b : Bool) : (s.setBusy b).err = s.err := rfl
@[simp] theorem State.setBusy_out (s : State) (b : Bool) : (s.setBusy b).out = s.out := rfl
@[simp] theorem State.setBusy_offers (s : State) (b : Bool) : (s.setBusy b).offers = s.offers := rfl
@[simp] theorem State.setBusy_resetLine (s : State) (b : Bool) : (s.setBusy b).resetLine = s.resetLine := rfl
@[simp] theorem State.setBusy_resetDraws (s : State) (b : Bool) : (s.setBusy b).resetDraws = s.resetDraws := rfl

@[simp] theorem State.setErr_x (s : State) (e : Option Cause) : (s.setErr e).x = s.x := rfl
@[simp] theorem State.setErr_cnt (s : State) (e : Option Cause) : (s.setErr e).cnt = s.cnt := rfl
@[simp] theorem State.setErr_busy (s : State) (e : Option Cause) : (s.setErr e).busy = s.busy := rfl
@[simp] theorem State.setErr_err (s : State) (e : Option Cause) : (s.setErr e).err = e := rfl
@[simp] theorem State.setErr_out (s : State) (e : Option Cause) : (s.setErr e).out = s.out := rfl
@[simp] theorem State.setErr_offers (s : State) (e : Option Cause) : (s.setErr e).offers = s.offers := rfl
@[simp] theorem State.setErr_resetLine (s : State) (e : Option Cause) : (s.setErr e).resetLine = s.resetLine := rfl
@[simp] theorem State.setErr_resetDraws (s : State) (e : Option Cause) : (s.setErr e).resetDraws = s.resetDraws := rfl

@[simp] theorem State.emit_x (s : State) (v : Word) : (s.emit v).x = s.x := rfl
@[simp] theorem State.emit_cnt (s : State) (v : Word) : (s.emit v).cnt = s.cnt := rfl
@[simp] theorem State.emit_busy (s : State) (v : Word) : (s.emit v).busy = s.busy := rfl
@[simp] theorem State.emit_err (s : State) (v : Word) : (s.emit v).err = s.err := rfl
@[simp] theorem State.emit_out (s : State) (v : Word) : (s.emit v).out = s.out ++ [v] := rfl
@[simp] theorem State.emit_offers (s : State) (v : Word) : (s.emit v).offers = s.offers := rfl
@[simp] theorem State.emit_resetLine (s : State) (v : Word) : (s.emit v).resetLine = s.resetLine := rfl
@[simp] theorem State.emit_resetDraws (s : State) (v : Word) : (s.emit v).resetDraws = s.resetDraws := rfl

@[simp] theorem State.passTime_x (s : State) : (s.passTime).x = s.x := rfl
@[simp] theorem State.passTime_cnt (s : State) : (s.passTime).cnt = s.cnt := rfl
@[simp] theorem State.passTime_busy (s : State) : (s.passTime).busy = s.busy := rfl
@[simp] theorem State.passTime_err (s : State) : (s.passTime).err = s.err := rfl
@[simp] theorem State.passTime_out (s : State) : (s.passTime).out = s.out := rfl
@[simp] theorem State.passTime_offers (s : State) : (s.passTime).offers = s.offers := rfl
@[simp] theorem State.passTime_resetLine (s : State) : (s.passTime).resetLine = s.resetLine.tail := rfl
@[simp] theorem State.passTime_resetDraws (s : State) : (s.passTime).resetDraws = s.resetDraws := rfl

@[simp] theorem State.acceptOffer_x (s : State) : (s.acceptOffer).x = s.x := rfl
@[simp] theorem State.acceptOffer_cnt (s : State) : (s.acceptOffer).cnt = s.cnt := rfl
@[simp] theorem State.acceptOffer_busy (s : State) : (s.acceptOffer).busy = s.busy := rfl
@[simp] theorem State.acceptOffer_err (s : State) : (s.acceptOffer).err = s.err := rfl
@[simp] theorem State.acceptOffer_out (s : State) : (s.acceptOffer).out = s.out := rfl
@[simp] theorem State.acceptOffer_offers (s : State) : (s.acceptOffer).offers = s.offers.tail := rfl
@[simp] theorem State.acceptOffer_resetLine (s : State) : (s.acceptOffer).resetLine = s.resetLine := rfl
@[simp] theorem State.acceptOffer_resetDraws (s : State) : (s.acceptOffer).resetDraws = s.resetDraws := rfl

@[simp] theorem State.offerNext_x (s : State) (c : CmdWord) : (s.offerNext c).x = s.x := rfl
@[simp] theorem State.offerNext_cnt (s : State) (c : CmdWord) : (s.offerNext c).cnt = s.cnt := rfl
@[simp] theorem State.offerNext_busy (s : State) (c : CmdWord) : (s.offerNext c).busy = false := rfl
@[simp] theorem State.offerNext_err (s : State) (c : CmdWord) : (s.offerNext c).err = s.err := rfl
@[simp] theorem State.offerNext_out (s : State) (c : CmdWord) : (s.offerNext c).out = s.out := rfl
@[simp] theorem State.offerNext_offers (s : State) (c : CmdWord) : (s.offerNext c).offers = c :: s.offers := rfl
@[simp] theorem State.offerNext_resetLine (s : State) (c : CmdWord) : (s.offerNext c).resetLine = false :: s.resetLine := rfl
@[simp] theorem State.offerNext_resetDraws (s : State) (c : CmdWord) : (s.offerNext c).resetDraws = s.resetDraws := rfl

@[simp] theorem iterate_x (s : State) (h : s.hasQuota) : (iterate s h).x = modmul s.x := rfl
@[simp] theorem iterate_cnt (s : State) (h : s.hasQuota) : (iterate s h).cnt = ⟨s.cnt.val + 1, Nat.succ_lt_succ h⟩ := rfl
@[simp] theorem iterate_busy (s : State) (h : s.hasQuota) : (iterate s h).busy = s.busy := rfl
@[simp] theorem iterate_err (s : State) (h : s.hasQuota) : (iterate s h).err = s.err := rfl
@[simp] theorem iterate_out (s : State) (h : s.hasQuota) : (iterate s h).out = s.out ++ [modmul s.x] := rfl
@[simp] theorem iterate_offers (s : State) (h : s.hasQuota) : (iterate s h).offers = s.offers := rfl
@[simp] theorem iterate_resetLine (s : State) (h : s.hasQuota) : (iterate s h).resetLine = s.resetLine := rfl
@[simp] theorem iterate_resetDraws (s : State) (h : s.hasQuota) : (iterate s h).resetDraws = s.resetDraws := rfl

@[simp] theorem loadSeed_x (s : State) (n : Word) : (loadSeed s n).x = n := rfl
@[simp] theorem loadSeed_cnt (s : State) (n : Word) : (loadSeed s n).cnt = 0 := rfl
@[simp] theorem loadSeed_busy (s : State) (n : Word) : (loadSeed s n).busy = s.busy := rfl
@[simp] theorem loadSeed_err (s : State) (n : Word) : (loadSeed s n).err = s.err := rfl
@[simp] theorem loadSeed_out (s : State) (n : Word) : (loadSeed s n).out = s.out := rfl
@[simp] theorem loadSeed_offers (s : State) (n : Word) : (loadSeed s n).offers = s.offers := rfl
@[simp] theorem loadSeed_resetLine (s : State) (n : Word) : (loadSeed s n).resetLine = s.resetLine := rfl
@[simp] theorem loadSeed_resetDraws (s : State) (n : Word) : (loadSeed s n).resetDraws = s.resetDraws := rfl

@[simp] theorem raiseFault_x (s : State) (c : Cause) : (raiseFault s c).x = s.x := rfl
@[simp] theorem raiseFault_cnt (s : State) (c : Cause) : (raiseFault s c).cnt = s.cnt := rfl
@[simp] theorem raiseFault_busy (s : State) (c : Cause) : (raiseFault s c).busy = s.busy := rfl
@[simp] theorem raiseFault_err (s : State) (c : Cause) : (raiseFault s c).err = some c := rfl
@[simp] theorem raiseFault_out (s : State) (c : Cause) : (raiseFault s c).out = s.out := rfl
@[simp] theorem raiseFault_offers (s : State) (c : Cause) : (raiseFault s c).offers = s.offers := rfl
@[simp] theorem raiseFault_resetLine (s : State) (c : Cause) : (raiseFault s c).resetLine = s.resetLine := rfl
@[simp] theorem raiseFault_resetDraws (s : State) (c : Cause) : (raiseFault s c).resetDraws = s.resetDraws := rfl

@[simp] theorem resetEngine_x (s : State) : (resetEngine s).x = Config.resetX s.resetDraws := rfl
@[simp] theorem resetEngine_cnt (s : State) : (resetEngine s).cnt = Count.spent := rfl
@[simp] theorem resetEngine_busy (s : State) : (resetEngine s).busy = false := rfl
@[simp] theorem resetEngine_err (s : State) : (resetEngine s).err = none := rfl
@[simp] theorem resetEngine_out (s : State) : (resetEngine s).out = s.out := rfl
@[simp] theorem resetEngine_offers (s : State) : (resetEngine s).offers = s.offers := rfl
@[simp] theorem resetEngine_resetLine (s : State) : (resetEngine s).resetLine = s.resetLine := rfl
@[simp] theorem resetEngine_resetDraws (s : State) : (resetEngine s).resetDraws = s.resetDraws + 1 := rfl

@[simp] theorem Count.spent_val : Count.spent.val = Config.quota := rfl

/-- `W` is 125 for the block of 512 bytes (R6). -/
theorem quota_eq : Config.quota = 125 := rfl

/-- `CNT ≤ W` (R13). -/
theorem State.cnt_le (s : State) : s.cnt.val ≤ 125 := Nat.lt_succ_iff.mp s.cnt.isLt

/-- `CNT < W` with the value of `W`. -/
theorem State.hasQuota_iff (s : State) : s.hasQuota ↔ s.cnt.val < 125 := Iff.rfl

/-- The quota is used up exactly when `CNT` is 125. -/
theorem State.not_hasQuota_iff (s : State) : ¬s.hasQuota ↔ s.cnt.val = 125 := by
  have := s.cnt_le
  rw [s.hasQuota_iff]
  omega

/-- `CNT + 1 = W` with the value of `W`. -/
theorem State.lastWord_iff (s : State) : s.lastWord ↔ s.cnt.val + 1 = 125 := Iff.rfl

/-- Two states with the same fields are the same state. -/
theorem State.ext_fields {s t : State} (hx : s.x = t.x) (hc : s.cnt = t.cnt) (hb : s.busy = t.busy)
    (he : s.err = t.err) (ho : s.out = t.out) (hf : s.offers = t.offers) (hr : s.resetLine = t.resetLine)
    (hd : s.resetDraws = t.resetDraws) : s = t := by
  cases s; cases t; simp_all

end Sys2Proof.Machine
end

