-- ==== Sys2Proof/Laws/Ops.lean ====
section
/-! SUPPORT. What each shared operation can do, said once. -/

namespace Sys2Proof.Laws

open Sys2Proof.Machine

/-- Without a fault a command has its effect (R58). -/
theorem obey_of_noFault {s : State} (h : s.err = none) (effect : State → State) :
    obey s effect = .next (effect s) := by
  simp [obey, h]

/-- With a fault a command is discarded (R133). -/
theorem obey_of_faulted {s : State} {c : Cause} (h : s.err = some c) (effect : State → State) :
    obey s effect = .next s := by
  simp [obey, h]

/-- An accepted command always answers a next state. -/
theorem obey_answers (s : State) (effect : State → State) : ∃ t, obey s effect = .next t := by
  unfold obey
  split <;> exact ⟨_, rfl⟩

/-- Everything an accepted command can do: its effect, or nothing. -/
theorem obey_cases {s t : State} {effect : State → State} (h : obey s effect = .next t) :
    (s.err = none ∧ t = effect s) ∨ (s.err ≠ none ∧ t = s) := by
  unfold obey at h
  split at h <;> cases h
  · exact .inl ⟨‹_›, rfl⟩
  · exact .inr ⟨by simp [*], rfl⟩

/-- Everything an `Iter` step that answers can do (R111). -/
theorem iter_cases {s t : State} (h : iter s = .next t) :
    ∃ q : s.hasQuota, (s.lastWord ∧ t = (iterate s q).setBusy false) ∨ (¬s.lastWord ∧ t = iterate s q) := by
  unfold iter at h
  split at h
  · rename_i q
    refine ⟨q, ?_⟩
    split at h <;> cases h
    · exact .inl ⟨‹_›, rfl⟩
    · exact .inr ⟨‹_›, rfl⟩
  · cases h

/-- An `Iter` step stops only where `Iterate()`'s precondition fails. -/
theorem iter_answers {s : State} (h : s.hasQuota) : ∃ t, iter s = .next t := by
  unfold iter
  simp [h]

end Sys2Proof.Laws
end

