-- ==== Sys2Proof/Laws/PerInstr.lean ====
section
/-! SUPPORT. One lemma per command for each statement made about all commands as syntax. -/

namespace Sys2Proof.Laws

/-- The row of R51 a command's word must fall in. -/
def rowIndex : Instr → Nat
  | .rsvd0 => 0
  | .seed _ => 1
  | .step => 2
  | .run => 3

/-- A command is well formed, and its word falls in its own row of R51, for the masked bits are the row's `match`. -/
def InItsRow.Statement (i : Instr) : Prop :=
  i.wellFormed = true ∧ (opcodeRows[rowIndex i]?.map (rowMatches (encode i))) = some true

theorem InItsRow.rsvd0 : InItsRow.Statement .rsvd0 :=
  ⟨wellFormed_all _, by decide⟩

theorem InItsRow.seed (n : Word) : InItsRow.Statement (.seed n) := by
  refine ⟨wellFormed_all _, ?_⟩
  have h : ((1#2 ++ n : BitVec (2 + 32)) &&& (3#2 ++ 0#32)) = 1#2 ++ 0#32 := by
    rw [BitVec.and_append, BitVec.and_zero]
    rfl
  have h' : packFields 1#2 n &&& 0x300000000#34 = 0x100000000#34 := h
  simp [opcodeRows, rowIndex, rowMatches, encode, opcodeOf, operandOf, h']

theorem InItsRow.step : InItsRow.Statement .step :=
  ⟨wellFormed_all _, by decide⟩

theorem InItsRow.run : InItsRow.Statement .run :=
  ⟨wellFormed_all _, by decide⟩

end Sys2Proof.Laws
end

