-- ==== Sys2Proof/Laws/Runs.lean ====
section
/-! SUPPORT. Runs of several steps, taken apart and put together, and that they are the host's runs. -/

namespace Sys2Proof.Laws

open Sys2Proof.Machine

/-- A run that begins with a step that answers goes on from there. -/
theorem steps_succ_of_next {s t : State} (h : step s = .next t) (k : Nat) : steps (k + 1) s = steps k t := by
  simp only [steps, h]

/-- A run of `a + b` steps whose first `a` answer goes on from there. -/
theorem steps_add_of_next {a : Nat} {s t : State} (h : steps a s = .next t) (b : Nat) :
    steps (a + b) s = steps b t := by
  induction a generalizing s with
  | zero =>
    cases h
    rw [Nat.zero_add]
  | succ a ih =>
    rw [Nat.succ_add]
    cases hs : step s with
    | next u =>
      rw [steps_succ_of_next hs] at h ⊢
      exact ih h
    | fault r => simp [steps, hs] at h
    | refused r => simp [steps, hs] at h

/-- `steps` is the host's `Core.run` of this machine. -/
theorem steps_eq_run (k : Nat) (s : State) : steps k s = Host.Core.run Sys2Proof.core k s := by
  induction k generalizing s with
  | zero => rfl
  | succ k ih =>
    cases hs : step s with
    | next t =>
      have hc : Sys2Proof.core.step s = .next t := hs
      rw [steps_succ_of_next hs, ih]
      simp only [Host.Core.run, hc]
      rfl
    | fault r =>
      have hc : Sys2Proof.core.step s = .fault r := hs
      simp only [steps, hs, Host.Core.run, hc]
      rfl
    | refused r =>
      have hc : Sys2Proof.core.step s = .refused r := hs
      simp only [steps, hs, Host.Core.run, hc]
      rfl

end Sys2Proof.Laws
end

