-- ==== Sys2Proof/Laws/Step.lean ====
section
/-! SUPPORT. What one step can do, said once (R7, R117). -/

namespace Sys2Proof.Laws

open Sys2Proof.Machine

theorem nextMove_of_reset {s : State} (h : s.resetActive = true) : nextMove s = .reset := by
  simp [nextMove, h]

theorem nextMove_of_busy {s : State} (h : s.resetActive = false) (b : s.busy = true) : nextMove s = .iter := by
  simp [nextMove, h, b]

theorem nextMove_of_offer {s : State} {c : CmdWord} {rest : List CmdWord} (h : s.resetActive = false)
    (b : s.busy = false) (o : s.offers = c :: rest) : nextMove s = .cmd c := by
  simp [nextMove, h, b, o]

theorem nextMove_of_noOffer {s : State} (h : s.resetActive = false) (b : s.busy = false) (o : s.offers = []) :
    nextMove s = .idle := by
  simp [nextMove, h, b, o]

/-- Everything a step that answers can do. -/
theorem step_cases {s t : State} (h : step s = .next t) :
    (s.resetActive = true ∧ t = resetEngine s.passTime) ∨
    (s.resetActive = false ∧ s.busy = true ∧ iter s.passTime = .next t) ∨
    (s.resetActive = false ∧ s.busy = false ∧ ∃ c rest, s.offers = c :: rest ∧
      exec (decode c) s.passTime.acceptOffer = .next t) ∨
    (s.resetActive = false ∧ s.busy = false ∧ s.offers = [] ∧ t = s.passTime) := by
  unfold step at h
  cases hr : s.resetActive with
  | true => rw [nextMove_of_reset hr] at h; cases h; exact .inl ⟨rfl, rfl⟩
  | false =>
    cases hb : s.busy with
    | true => rw [nextMove_of_busy hr hb] at h; exact .inr (.inl ⟨rfl, rfl, h⟩)
    | false =>
      cases ho : s.offers with
      | nil => rw [nextMove_of_noOffer hr hb ho] at h; cases h; exact .inr (.inr (.inr ⟨rfl, rfl, rfl, rfl⟩))
      | cons c rest => rw [nextMove_of_offer hr hb ho] at h; exact .inr (.inr (.inl ⟨rfl, rfl, c, rest, rfl, h⟩))

/-- Everything a command that answers can do: discarded by a fault, or its own effect. -/
theorem exec_cases {i : Instr} {s t : State} (h : exec i s = .next t) :
    (s.err ≠ none ∧ t = s) ∨
    (s.err = none ∧
      ((i = .rsvd0 ∧ t = raiseFault s .eReserved) ∨
       (∃ n, i = .seed n ∧ t = loadSeed s n) ∨
       (i = .step ∧ ∃ q : s.hasQuota, t = iterate s q) ∨
       (i = .step ∧ ¬s.hasQuota ∧ t = raiseFault s .eOverrun) ∨
       (i = .run ∧ s.hasQuota ∧ t = s.setBusy true) ∨
       (i = .run ∧ ¬s.hasQuota ∧ t = s))) := by
  cases i with
  | rsvd0 =>
    simp only [exec, execRsvd0] at h
    obtain ⟨e, ht⟩ | ⟨e, ht⟩ := obey_cases h
    · exact .inr ⟨e, .inl ⟨rfl, ht⟩⟩
    · exact .inl ⟨e, ht⟩
  | seed n =>
    simp only [exec, execSeed] at h
    obtain ⟨e, ht⟩ | ⟨e, ht⟩ := obey_cases h
    · exact .inr ⟨e, .inr (.inl ⟨n, rfl, ht⟩)⟩
    · exact .inl ⟨e, ht⟩
  | step =>
    simp only [exec, execStep] at h
    obtain ⟨e, ht⟩ | ⟨e, ht⟩ := obey_cases h
    · refine .inr ⟨e, ?_⟩
      split at ht
      · rename_i q; exact .inr (.inr (.inl ⟨rfl, q, ht⟩))
      · rename_i q; exact .inr (.inr (.inr (.inl ⟨rfl, q, ht⟩)))
    · exact .inl ⟨e, ht⟩
  | run =>
    simp only [exec, execRun] at h
    obtain ⟨e, ht⟩ | ⟨e, ht⟩ := obey_cases h
    · refine .inr ⟨e, ?_⟩
      split at ht
      · rename_i q; exact .inr (.inr (.inr (.inr (.inl ⟨rfl, q, ht⟩))))
      · rename_i q; exact .inr (.inr (.inr (.inr (.inr ⟨rfl, q, ht⟩))))
    · exact .inl ⟨e, ht⟩

end Sys2Proof.Laws
end

