-- ==== Sys2Proof/Tests/Slice0.lean ====
section
/-! SUPPORT. Tests from the spec's own vectors (95_test_vectors.md), the refusals of WellFormed, and a witness for the
hypotheses of every statement. -/

namespace Sys2Proof.Tests

open Sys2Proof.Machine

/-- A state as 95_test_vectors.md writes it: (`X`, `CNT`, `BUSY`, `ERR`), nothing emitted, nothing offered. -/
def st (x : Word) (cnt : Count) (busy : Bool) (err : Option Cause) : State :=
  { State.reset with x := x, cnt := cnt, busy := busy, err := err }

/-- The next state, where there is one. -/
def after (o : Host.Outcome State Fault Refusal) : Option State :=
  match o with
  | .next s => some s
  | .fault _ => none
  | .refused _ => none

/-- (`X`, `CNT`, `BUSY`, `ERR`, `OUT`) of the next state. -/
def view (o : Host.Outcome State Fault Refusal) : Option (Word × Nat × Bool × Option Cause × List Word) :=
  (after o).map fun s => (s.x, s.cnt.val, s.busy, s.err, s.out)

/-- A state with words on offer. -/
def offering (s : State) (cs : List CmdWord) : State := { s with offers := cs }

/-! ### WellFormed refuses (R59, R50) -/

theorem test_seed_negative_refused : seedFits (-1) = false := by decide
theorem test_seed_2pow32_refused : seedFits 4294967296 = false := by decide
theorem test_seed_largest_fits : seedFits 4294967295 = true := by decide
theorem test_word_35_bits_refused : decodeNat 0x400000000 = .error .widerThanCommandWord := by rfl
theorem test_source_seed_refused : (Source.seed 4294967296).wellFormed = false := by decide
theorem test_source_block_refused : (Source.block (-1)).wellFormed = false := by decide
theorem test_seed_wellFormed : (Instr.seed 4294967295#32).wellFormed = true := by decide

/-! ### Decoding, by words written out from R51 (95 section 2.2) -/

theorem test_decode_rsvd0 : decode 0b0011111111111111111111111111111111#34 = .rsvd0 := by decide
theorem test_decode_seed : decode 0b0100000000000000000000000110001111#34 = .seed 399#32 := by decide
theorem test_decode_step : decode 0b1000010010001101000101011001111000#34 = .step := by decide
theorem test_decode_run : decode 0b1111111111111111111111111111111111#34 = .run := by decide
theorem test_encode_seed : encode (.seed 399#32) = 0x10000018F#34 := by decide
theorem test_table_word_seed : decodeTableWord 40 0x1FFFFFFFB = some (.seed 4294967291#32) := by decide
theorem test_table_word_run_runs :
    view (step (State.reset.withFetchWord 40 0x100000005)) = some (5#32, 0, false, none, []) := by decide

/-! ### The multiplier (95 section 2.1) -/

theorem test_modmul_first_reduced : modmul 3#32 = 1152962749#32 := by decide
theorem test_modmul_largest : modmul 4294967295#32 = 2968939429#32 := by decide
theorem test_modmul_deadbeef : modmul 3735928559#32 = 2080783383#32 := by decide
theorem test_modmul_bit31 : modmul 2147483648#32 = 244974409#32 := by decide
theorem test_fold_of_largest_product : fold5 (product 4294967295#32) = 11558874011 := by decide
theorem test_modmulFolded_largest : modmulFolded 4294967295#32 = 2968939429#32 := by decide
theorem test_modmul64_A : modmul64 1815976680#32 = 3575652835#32 := by decide
theorem test_words_of_seed_5 : wordsFrom 3 5#32 = [0x1D340692#32, 0x29A0A983#32, 0x5FCA68A4#32] := by decide
theorem test_last_word_of_seed_1 : closedForm 1#32 125 = 0xCB9E5714#32 := by decide

theorem test_word_124_of_seed_1 : closedForm 1#32 124 = 2321957279#32 := by decide

/-! ### SEED (95 section 2.3) -/

theorem test_seed_midblock : view (exec (.seed 1#32) (st 7#32 3 false none)) = some (1#32, 0, false, none, []) := by
  decide
theorem test_seed_faulted_discarded :
    view (exec (.seed 1#32) (st 7#32 3 false (some .eReserved))) = some (7#32, 3, false, some .eReserved, []) := by
  decide

/-! ### STEP (95 section 2.4) -/

theorem test_step_last_word :
    view (exec .step (st 2321957279#32 124 false none)) =
      some (3416151828#32, 125, false, none, [0xCB9E5714#32]) := by
  decide
theorem test_step_126th_overruns :
    view (exec .step (st 3416151828#32 125 false none)) = some (3416151828#32, 125, false, some .eOverrun, []) := by
  decide

/-! ### RUN and Iter (95 section 2.5) -/

theorem test_run_sets_busy : view (exec .run (st 1#32 0 false none)) = some (1#32, 0, true, none, []) := by decide
theorem test_run_finished_block :
    view (exec .run (st 3416151828#32 125 false none)) = some (3416151828#32, 125, false, none, []) := by
  decide
theorem test_iter_first : view (step (st 1#32 0 true none)) = some (1815976680#32, 1, true, none, [0x6C3D9AE8#32]) := by
  decide
theorem test_iter_last_clears_busy :
    view (step (st 2321957279#32 124 true none)) = some (3416151828#32, 125, false, none, [0xCB9E5714#32]) := by
  decide

/-! ### RSVD0, faults, Reset, status (95 sections 2.6, 2.7) -/

theorem test_rsvd0_faults :
    view (exec .rsvd0 (st 7#32 3 false none)) = some (7#32, 3, false, some .eReserved, []) := by
  decide
theorem test_rsvd0_keeps_first_cause :
    view (exec .rsvd0 (st 7#32 125 false (some .eOverrun))) = some (7#32, 125, false, some .eOverrun, []) := by
  decide
theorem test_reset_step_from_fault :
    (after (step { st 7#32 3 false (some .eReserved) with resetLine := [true] })).map
      (fun s => (s.cnt.val, s.busy, s.err)) = some (125, false, none) := by
  decide
theorem test_status_overrun :
    (fun s : State => (s.busyOut, s.doneOut, s.errOut, s.ecauseOut, s.cmdReadyOut))
      (st 3416151828#32 125 false (some .eOverrun)) = (false, true, true, 2#2, true) := by
  decide
theorem test_status_inside_run :
    (fun s : State => (s.busyOut, s.doneOut, s.errOut, s.ecauseOut, s.cmdReadyOut)) (st 321420116#32 3 true none) =
      (true, false, false, 0#2, false) := by
  decide

/-! ### The assembler (R56, R57, R59) and the buffer (V1, V3) -/

theorem test_assemble_block_with_comment :
    assemble ['B', 'L', 'O', 'C', 'K', ' ', '1', ' ', ';', ' ', 'p', '\n', '\n', 'S', 'T', 'E', 'P'] =
      .ok [0x100000001#34, 0x300000000#34, 0x200000000#34] := by
  decide
theorem test_assemble_hex_seed :
    assemble ['S', 'E', 'E', 'D', ' ', '0', 'x', 'F', 'F', 'F', 'F', 'F', 'F', 'F', 'B'] = .ok [0x1FFFFFFFB#34] := by
  decide
theorem test_assemble_wide_seed_rejected :
    assemble ['S', 'E', 'E', 'D', ' ', '4', '2', '9', '4', '9', '6', '7', '2', '9', '6'] = .error .seedOutOfRange := by
  decide
theorem test_disassemble_step_ignores_arg : disassemble 0x212345678#34 = ['S', 'T', 'E', 'P'] := by decide
theorem test_disassemble_seed :
    disassemble 0x1FFFFFFFF#34 = ['S', 'E', 'E', 'D', ' ', '4', '2', '9', '4', '9', '6', '7', '2', '9', '5'] := by
  decide
theorem test_header_of_block_0 :
    (storeHeader (List.replicate 12 0xFF#8) 0#32) =
      [0x68#8, 0x65#8, 0x6C#8, 0x6F#8, 0x64#8, 0x61#8, 0x74#8, 0x61#8, 0#8, 0#8, 0#8, 0#8] := by
  decide
theorem test_first_word_of_block_1 : wordBytes (modmul 1#32) = [0xE8#8, 0x9A#8, 0x3D#8, 0x6C#8] := by decide

theorem test_commands_of_the_first_two_blocks :
    fileCommands 2 = [0x100000000#34, 0x300000000#34, 0x100000001#34, 0x300000000#34] := by
  decide

/-! ### Witnesses: each statement's hypotheses hold of something, at boundary values where it has clauses -/

theorem witness_ready : State.reset.Ready := ⟨rfl, rfl⟩
theorem witness_ready_seeded : (st 1#32 0 false none).Ready ∧ (st 1#32 0 false none).hasQuota := by decide
theorem witness_ready_last_word : (st 1#32 124 false none).Ready ∧ (st 1#32 124 false none).hasQuota := by decide
theorem witness_ready_quota_used : (st 1#32 125 false none).Ready ∧ (st 1#32 125 false none).cnt.val = 125 := by decide
theorem witness_seed_in_range : (0 : Int) ≤ 4294967295 ∧ (4294967295 : Int) < 2 ^ 32 := by decide
theorem witness_seed_out_of_range : ¬((0 : Int) ≤ 4294967296 ∧ (4294967296 : Int) < 2 ^ 32) := by decide
theorem witness_seed_negative : ¬((0 : Int) ≤ -1 ∧ (-1 : Int) < 2 ^ 32) := by decide
theorem witness_block_index : (399 : Nat) < 2 ^ 32 := by decide
theorem witness_seed_at_modulus : 4294967291 ≤ (0xFFFFFFFB#32 : Word).toNat := by decide
theorem witness_below_modulus :
    (4294967290#32 : Word).toNat < 4294967291 ∧ modmul 4294967290#32 = modmul 4294967290#32 := ⟨by decide, rfl⟩
theorem witness_multiple_of_modulus : (4294967291#32 : Word).toNat % 4294967291 = 0 := by decide
theorem witness_nonzero_seed : (4294967292#32 : Word).toNat % 4294967291 ≠ 0 := by decide
theorem witness_closed_form : 1 ≤ 125 := by decide
theorem witness_faulted :
    (st 7#32 3 false (some .eReserved)).err ≠ none ∧ (st 7#32 3 false (some .eReserved)).Inv ∧
      (st 7#32 3 false (some .eReserved)).resetActive = false :=
  ⟨by decide, fun h => absurd h (by decide), rfl⟩
theorem witness_frame_rsvd0 : exec .rsvd0 (st 7#32 3 false none) = .next (st 7#32 3 false (some .eReserved)) := rfl
theorem witness_frame_seed : exec (.seed 1#32) (st 7#32 3 false none) = .next (st 1#32 0 false none) := rfl
theorem witness_frame_step : (after (exec .step (st 1#32 0 false none))).isSome := by decide
theorem witness_frame_run : exec .run (st 1#32 0 false none) = .next (st 1#32 0 true none) := rfl
theorem witness_fault_entry_reserved :
    (st 7#32 3 false none).Ready ∧
      exec .rsvd0 (st 7#32 3 false none) = .next (st 7#32 3 false (some .eReserved)) := ⟨⟨rfl, rfl⟩, rfl⟩
theorem witness_fault_entry_overrun :
    (st 7#32 125 false none).Ready ∧
      exec .step (st 7#32 125 false none) = .next (st 7#32 125 false (some .eOverrun)) := ⟨⟨rfl, rfl⟩, rfl⟩
theorem witness_iter_answers : (after (iter (st 1#32 124 true none))).isSome := by decide
theorem witness_busy :
    (st 1#32 0 true none).hasQuota ∧ (st 1#32 0 true none).resetActive = false ∧ (st 1#32 0 true none).busy = true := by
  decide
theorem witness_busy_last :
    (st 1#32 124 true none).hasQuota ∧ (st 1#32 124 true none).resetActive = false ∧
      (st 1#32 124 true none).busy = true := by
  decide
theorem witness_offer :
    (offering State.reset [encode .run]).offers = encode .run :: [] ∧ (offering State.reset [encode .run]).busy = false ∧
      (offering State.reset [encode .run]).resetActive = false := ⟨rfl, rfl, rfl⟩
theorem witness_no_offer :
    State.reset.offers = [] ∧ State.reset.busy = false ∧ State.reset.resetActive = false := ⟨rfl, rfl, rfl⟩
theorem witness_fault_stays :
    (st 7#32 3 false (some .eReserved)).err = some .eReserved ∧
      step (st 7#32 3 false (some .eReserved)) = .next (st 7#32 3 false (some .eReserved)) := ⟨rfl, rfl⟩
theorem witness_fault_cleared :
    (after (step { st 7#32 3 false (some .eReserved) with resetLine := [true] })).map (fun s => s.err) = some none := by
  decide
theorem witness_seeds_and_runs :
    (offering State.reset (blockCommands 5#32)).Inv ∧ (offering State.reset (blockCommands 5#32)).err = none ∧
      (offering State.reset (blockCommands 5#32)).OnlySeedsAndRuns := by
  refine ⟨fun h => absurd h (by decide), rfl, fun c hc => ?_⟩
  have hc' : c ∈ [encode (.seed 5#32), encode .run] := hc
  rw [List.mem_cons, List.mem_singleton] at hc'
  obtain rfl | rfl := hc'
  · exact .inl ⟨5#32, by decide⟩
  · exact .inr (by decide)
theorem witness_reset_active : State.resetActive { State.reset with resetLine := [true] } = true := rfl
theorem witness_same_but_x :
    (st 7#32 125 false none).SameButX (st 9#32 125 false none) ∧ (st 7#32 125 false none).cnt.val = 125 ∧
      (st 7#32 125 false none).Inv := ⟨rfl, rfl, fun h => absurd h (by decide)⟩
theorem witness_inv_busy : (st 1#32 124 true none).Inv := fun _ => ⟨by decide, rfl⟩
theorem witness_step_answers : (after (step (st 1#32 124 true none))).isSome := by decide
theorem witness_ranges :
    (st 1815976680#32 1 false none).XInRange ∧ (st 1815976680#32 1 false none).OutInRange :=
  ⟨fun _ _ => by decide, fun v hv => absurd hv (List.not_mem_nil)⟩
/-- A state one word before the end of the block of seed 1 keeps the ledger, and its `Iter` step uses the quota up. -/
theorem witness_ledger_last_word :
    State.Ledger { st (iterated 124 1#32) 124 true none with out := wordsFrom 124 1#32 } :=
  fun _ => ⟨1#32, [], rfl, rfl⟩
theorem witness_ledger_completes :
    (after (step { st (iterated 124 1#32) 124 true none with out := wordsFrom 124 1#32 })).map (fun s => s.cnt.val) =
      some 125 := by
  decide
theorem witness_same_control : (st 7#32 3 false none).SameControl (st 9#32 3 false none) :=
  ⟨rfl, rfl, rfl, rfl, rfl, rfl, rfl⟩
theorem witness_done_not_busy : State.reset.Inv ∧ State.reset.doneOut = true := ⟨fun h => absurd h (by decide), rfl⟩
theorem witness_run_ends :
    (st 1#32 0 true none).busy = true ∧ (st 1#32 0 true none).Inv ∧ (st 1#32 0 true none).NoResetFor 125 :=
  ⟨rfl, fun _ => ⟨by decide, rfl⟩, by decide⟩
theorem witness_run_ends_last :
    (st 1#32 124 true none).busy = true ∧ (st 1#32 124 true none).Inv ∧ (st 1#32 124 true none).NoResetFor 1 :=
  ⟨rfl, fun _ => ⟨by decide, rfl⟩, by decide⟩
theorem witness_run_unrolled_one :
    (st 1#32 124 false none).Ready ∧ (st 1#32 124 false none).cnt.val + 1 = 125 ∧
      (st 1#32 124 false none).NoResetFor 2 :=
  ⟨⟨rfl, rfl⟩, rfl, by decide⟩
theorem witness_run_unrolled_none :
    (st 1#32 125 false none).Ready ∧ (st 1#32 125 false none).cnt.val + 0 = 125 ∧
      (st 1#32 125 false none).NoResetFor 1 :=
  ⟨⟨rfl, rfl⟩, rfl, by decide⟩
theorem witness_run_unrolled_all :
    (st 1#32 0 false none).Ready ∧ (st 1#32 0 false none).cnt.val + 125 = 125 ∧
      (st 1#32 0 false none).NoResetFor 126 :=
  ⟨⟨rfl, rfl⟩, rfl, by decide⟩
theorem witness_block :
    (offering State.reset (blockCommands 5#32)).Ready ∧
      (offering State.reset (blockCommands 5#32)).offers = blockCommands 5#32 ++ [] ∧
      (offering State.reset (blockCommands 5#32)).NoResetFor 127 :=
  ⟨⟨rfl, rfl⟩, rfl, by decide⟩
theorem witness_blocks :
    (offering State.reset (([0#32, 1#32] : List Word).flatMap blockCommands)).Ready ∧
      (offering State.reset (([0#32, 1#32] : List Word).flatMap blockCommands)).offers =
        ([0#32, 1#32] : List Word).flatMap blockCommands ++ [] ∧
      (offering State.reset (([0#32, 1#32] : List Word).flatMap blockCommands)).NoResetFor (127 * 2) :=
  ⟨⟨rfl, rfl⟩, rfl, by decide⟩
theorem witness_seed_erases :
    (offering (st 7#32 3 false none) [encode (.seed 1#32)]).Ready ∧
      (offering (st 9#32 125 false none) [encode (.seed 1#32)]).Ready ∧
      (offering (st 7#32 3 false none) [encode (.seed 1#32)]).offers = encode (.seed 1#32) :: [] ∧
      (offering (st 9#32 125 false none) [encode (.seed 1#32)]).offers =
        (offering (st 7#32 3 false none) [encode (.seed 1#32)]).offers ∧
      (offering (st 9#32 125 false none) [encode (.seed 1#32)]).resetLine =
        (offering (st 7#32 3 false none) [encode (.seed 1#32)]).resetLine :=
  ⟨⟨rfl, rfl⟩, ⟨rfl, rfl⟩, rfl, rfl, rfl⟩
/-- Either premise of the clause on `X` holds of something: no `Reset` falls, and words of the seed remain. -/
theorem witness_seed_erases_x :
    (offering (st 7#32 3 false none) [encode (.seed 1#32)]).NoResetFor 1 ∧
      (after (step (offering (st 7#32 3 false none) [encode (.seed 1#32)]))).map (fun s => s.cnt.val) = some 0 := by
  decide
theorem witness_buffer : 508 + 4 ≤ (List.replicate 512 0#8 : List Byte).length := by rw [List.length_replicate]
theorem witness_block_buffer :
    (List.replicate 512 0#8 : List Byte).length = 512 ∧ (List.replicate 125 0#32 : List Word).length = 125 :=
  ⟨List.length_replicate, List.length_replicate⟩

end Sys2Proof.Tests
end

namespace Sys2Proof.Proofs

open Sys2Proof.Machine Sys2Proof.Laws

/-! ### The step, one equation per move (R7, R117) -/

theorem step_of_reset {s : State} (h : s.resetActive = true) : step s = .next (resetEngine s.passTime) := by
  simp [step, nextMove_of_reset h]

theorem step_of_busy {s : State} (h : s.resetActive = false) (b : s.busy = true) : step s = iter s.passTime := by
  simp [step, nextMove_of_busy h b]

theorem step_of_offer {s : State} {c : CmdWord} {rest : List CmdWord} (h : s.resetActive = false)
    (b : s.busy = false) (o : s.offers = c :: rest) : step s = exec (decode c) s.passTime.acceptOffer := by
  simp [step, nextMove_of_offer h b o]

theorem step_of_noOffer {s : State} (h : s.resetActive = false) (b : s.busy = false) (o : s.offers = []) :
    step s = .next s.passTime := by
  simp [step, nextMove_of_noOffer h b o]

/-! ### A command's effect, apart from the discard of R133 -/

/-- What an accepted command does to an engine without a fault (R91, R92, R93, R110). -/
def effectOf (i : Instr) (s : State) : State :=
  match i with
  | .rsvd0 => raiseFault s .eReserved
  | .seed n => loadSeed s n
  | .step => if q : s.hasQuota then iterate s q else raiseFault s .eOverrun
  | .run => if s.hasQuota then s.setBusy true else s

theorem effectOf_step_of_quota {s : State} (q : s.hasQuota) : effectOf .step s = iterate s q :=
  dif_pos q

theorem effectOf_step_of_spent {s : State} (q : ¬s.hasQuota) : effectOf .step s = raiseFault s .eOverrun :=
  dif_neg q

theorem effectOf_run_of_quota {s : State} (q : s.hasQuota) : effectOf .run s = s.setBusy true :=
  if_pos q

theorem effectOf_run_of_spent {s : State} (q : ¬s.hasQuota) : effectOf .run s = s :=
  if_neg q

/-- Every command is obeyed or discarded as R58 and R133 say. -/
theorem exec_eq_obey (i : Instr) (s : State) : exec i s = obey s (effectOf i) := by
  cases i <;> rfl

theorem exec_of_noFault {s : State} (h : s.err = none) (i : Instr) : exec i s = .next (effectOf i s) := by
  rw [exec_eq_obey, obey_of_noFault h]

/-! ### The host's inputs: the word of a command, and the samples of the reset input -/

/-- The word of a command decodes to the command, its operand included (R51, R52). -/
theorem decode_encode (i : Instr) : decode (encode i) = i := by
  have hop : opField (encode i) = opcodeOf i := opField_packFields _ _
  cases i with
  | rsvd0 => exact decode_of_op0 hop
  | seed n =>
    have harg : argField (encode (.seed n)) = n := argField_packFields _ _
    rw [decode_of_op1 hop, harg]
  | step => exact decode_of_op2 hop
  | run => exact decode_of_op3 hop

/-- A ready engine that is offered `SEED n` loads `n`. -/
theorem step_of_seedOffer {s : State} {n : Word} {rest : List CmdWord} (h : s.resetActive = false) (hs : s.Ready)
    (ho : s.offers = encode (.seed n) :: rest) : step s = .next (loadSeed s.passTime.acceptOffer n) := by
  rw [step_of_offer h hs.1 ho, decode_encode]
  exact exec_of_noFault (s := s.passTime.acceptOffer) hs.2 _

/-- No command reads or writes the reset input. -/
theorem exec_resetLine {i : Instr} {s t : State} (h : exec i s = .next t) : t.resetLine = s.resetLine := by
  obtain ⟨-, rfl⟩ | ⟨-, ⟨-, rfl⟩ | ⟨n, -, rfl⟩ | ⟨-, q, rfl⟩ | ⟨-, -, rfl⟩ | ⟨-, -, rfl⟩ | ⟨-, -, rfl⟩⟩ :=
    exec_cases h <;> rfl

theorem iter_resetLine {s t : State} (h : iter s = .next t) : t.resetLine = s.resetLine := by
  obtain ⟨q, ⟨-, rfl⟩ | ⟨-, rfl⟩⟩ := iter_cases h <;> rfl

/-- Every step uses one sample of the reset input. -/
theorem step_resetLine {s t : State} (h : step s = .next t) : t.resetLine = s.resetLine.tail := by
  obtain ⟨-, rfl⟩ | ⟨-, -, hi⟩ | ⟨-, -, c, rest, -, he⟩ | ⟨-, -, -, rfl⟩ := step_cases h
  · rfl
  · exact iter_resetLine hi
  · exact exec_resetLine he
  · rfl

/-- Whether a `Reset` falls now depends on the samples of the reset input alone. -/
theorem resetActive_congr {s t : State} (h : t.resetLine = s.resetLine) : t.resetActive = s.resetActive := by
  rw [State.resetActive, h, State.resetActive]

/-- No `Reset` in `k + 1` steps: none now, and none in the `k` steps after it. -/
theorem noResetFor_succ_iff (s : State) (k : Nat) :
    s.NoResetFor (k + 1) ↔ s.resetActive = false ∧ s.passTime.NoResetFor k := by
  unfold State.NoResetFor State.resetActive
  cases hr : s.resetLine with
  | nil => simp [hr]
  | cons r rs => cases r <;> simp [hr]

/-- After a step of a stretch without `Reset`, the rest of the stretch is without one. -/
theorem noResetFor_of_step {s t : State} {k : Nat} (hn : s.NoResetFor (k + 1)) (h : step s = .next t) :
    t.NoResetFor k := by
  have hk : s.passTime.NoResetFor k := ((noResetFor_succ_iff s k).mp hn).2
  rwa [State.NoResetFor, step_resetLine h]

/-! ### R20's invariant -/

/-- An engine with `BUSY = 0` has R20's invariant. -/
theorem inv_of_quiescent {s : State} (h : s.busy = false) : s.Inv := by
  simp [State.Inv, h]

theorem resetEngine_inv (s : State) : (resetEngine s).Inv :=
  inv_of_quiescent rfl

/-- `Iter` clears `BUSY` at the last word, and before it a word of the quota is left. -/
theorem iter_keeps_inv {s t : State} (hs : s.Inv) (h : iter s = .next t) : t.Inv := by
  obtain ⟨q, ⟨-, rfl⟩ | ⟨hlast, rfl⟩⟩ := iter_cases h
  · exact inv_of_quiescent rfl
  · intro hb
    have hq : s.cnt.val + 1 < 125 := by
      rw [State.hasQuota_iff] at q
      rw [State.lastWord_iff] at hlast
      omega
    exact ⟨hq, (hs hb).2⟩

/-- From `BUSY = 0` only `RUN` sets `BUSY`, and it tests `CNT < W` first. -/
theorem effectOf_inv_of_ready {s : State} (hs : s.Ready) (i : Instr) : (effectOf i s).Inv := by
  obtain ⟨hb, he⟩ := hs
  cases i with
  | rsvd0 => exact inv_of_quiescent hb
  | seed n => exact inv_of_quiescent hb
  | step =>
    by_cases q : s.hasQuota
    · rw [effectOf_step_of_quota q]
      exact inv_of_quiescent hb
    · rw [effectOf_step_of_spent q]
      exact inv_of_quiescent hb
  | run =>
    by_cases q : s.hasQuota
    · rw [effectOf_run_of_quota q]
      exact fun _ => ⟨q, he⟩
    · rw [effectOf_run_of_spent q]
      exact inv_of_quiescent hb

/-- A command accepted with `BUSY = 0` leaves the invariant, obeyed or discarded. -/
theorem exec_inv_of_quiescent {i : Instr} {s t : State} (hb : s.busy = false) (h : exec i s = .next t) : t.Inv := by
  rw [exec_eq_obey] at h
  obtain ⟨he, rfl⟩ | ⟨-, rfl⟩ := obey_cases h
  · exact effectOf_inv_of_ready ⟨hb, he⟩ i
  · exact inv_of_quiescent hb

/-- Every step keeps R20's invariant. -/
theorem step_keeps_inv {s t : State} (hs : s.Inv) (h : step s = .next t) : t.Inv := by
  obtain ⟨-, rfl⟩ | ⟨-, -, hi⟩ | ⟨-, hb, c, rest, -, he⟩ | ⟨-, hb, -, rfl⟩ := step_cases h
  · exact resetEngine_inv _
  · exact iter_keeps_inv (s := s.passTime) hs hi
  · exact exec_inv_of_quiescent (s := s.passTime.acceptOffer) hb he
  · exact inv_of_quiescent hb

/-- Settles O34: `Reset` leaves `BUSY = 0`, and each kind of step keeps the invariant. -/
theorem everyStepKeepsTheControlInvariant : Obligations.EveryStepKeepsTheControlInvariant :=
  ⟨inv_of_quiescent rfl, resetEngine_inv, fun _ t hs h => ⟨step_keeps_inv hs h, t.cnt_le⟩⟩

/-! ### Two engines in the same seed (R21)

After a `SEED` two engines hold the same seed's state and differ in what they emitted before it. `Abreast` says so and
is kept by each operation of the model; a `Reset` gives each engine an `X` of its own, which neither can emit, since
`CNT` is `W` then. -/

/-- Two engines that agree in control state and inputs, have appended the same words to `a` and to `b`, and agree in `X`
while words of the current seed remain, or throughout where `keepX` holds. -/
structure Abreast (keepX : Prop) (a b : List Word) (s t : State) : Prop where
  cnt : t.cnt = s.cnt
  busy : t.busy = s.busy
  err : t.err = s.err
  offers : t.offers = s.offers
  resetLine : t.resetLine = s.resetLine
  x : keepX ∨ s.hasQuota → t.x = s.x
  out : ∃ words, s.out = a ++ words ∧ t.out = b ++ words

/-- Both outcomes are next states, and `R` relates them. -/
def BothNext (R : State → State → Prop) (o p : Host.Outcome State Fault Refusal) : Prop :=
  ∃ s t, o = .next s ∧ p = .next t ∧ R s t

section
variable {keepX : Prop} {a b : List Word} {s t : State}

theorem Abreast.hasQuota_iff (h : Abreast keepX a b s t) : t.hasQuota ↔ s.hasQuota := by
  rw [State.hasQuota, h.cnt]

theorem Abreast.resetActive (h : Abreast keepX a b s t) : t.resetActive = s.resetActive :=
  resetActive_congr h.resetLine

theorem Abreast.setBusy (h : Abreast keepX a b s t) (v : Bool) : Abreast keepX a b (s.setBusy v) (t.setBusy v) :=
  { h with busy := rfl }

theorem Abreast.raiseFault (h : Abreast keepX a b s t) (c : Cause) :
    Abreast keepX a b (raiseFault s c) (raiseFault t c) :=
  { h with err := rfl }

theorem Abreast.loadSeed (h : Abreast keepX a b s t) (n : Word) :
    Abreast keepX a b (loadSeed s n) (loadSeed t n) :=
  { h with cnt := rfl, x := fun _ => rfl }

theorem Abreast.passTime (h : Abreast keepX a b s t) : Abreast keepX a b s.passTime t.passTime :=
  { h with resetLine := congrArg List.tail h.resetLine }

theorem Abreast.acceptOffer (h : Abreast keepX a b s t) : Abreast keepX a b s.acceptOffer t.acceptOffer :=
  { h with offers := congrArg List.tail h.offers }

/-- The word that an iteration emits is the same in both, for a word of the quota is left. -/
theorem Abreast.iterate (h : Abreast keepX a b s t) (q : s.hasQuota) (q' : t.hasQuota) :
    Abreast keepX a b (iterate s q) (iterate t q') := by
  have hx : t.x = s.x := h.x (.inr q)
  obtain ⟨words, hs, ht⟩ := h.out
  exact { h with
    cnt := by simp [h.cnt]
    x := fun _ => by simp [hx]
    out := ⟨words ++ [modmul s.x], by simp [hs], by simp [ht, hx]⟩ }

/-- The free values of two `Reset` steps are not compared. -/
theorem Abreast.resetEngine (h : Abreast keepX a b s t) (hk : ¬keepX) :
    Abreast keepX a b (resetEngine s) (resetEngine t) :=
  { h with cnt := rfl, busy := rfl, err := rfl, x := fun hx => absurd hx (by simp [hk]) }

theorem Abreast.effectOf (h : Abreast keepX a b s t) (i : Instr) :
    Abreast keepX a b (effectOf i s) (effectOf i t) := by
  cases i with
  | rsvd0 => exact h.raiseFault .eReserved
  | seed n => exact h.loadSeed n
  | step =>
    by_cases q : s.hasQuota
    · rw [effectOf_step_of_quota q, effectOf_step_of_quota (h.hasQuota_iff.mpr q)]
      exact h.iterate q _
    · rw [effectOf_step_of_spent q, effectOf_step_of_spent (mt h.hasQuota_iff.mp q)]
      exact h.raiseFault .eOverrun
  | run =>
    by_cases q : s.hasQuota
    · rw [effectOf_run_of_quota q, effectOf_run_of_quota (h.hasQuota_iff.mpr q)]
      exact h.setBusy true
    · rwa [effectOf_run_of_spent q, effectOf_run_of_spent (mt h.hasQuota_iff.mp q)]

/-- A command keeps two engines abreast, obeyed by both or discarded by both. -/
theorem Abreast.exec (h : Abreast keepX a b s t) (i : Instr) :
    BothNext (Abreast keepX a b) (exec i s) (exec i t) := by
  rw [exec_eq_obey, exec_eq_obey]
  cases hs : s.err with
  | none => exact ⟨_, _, obey_of_noFault hs _, obey_of_noFault (h.err.trans hs) _, h.effectOf i⟩
  | some c => exact ⟨_, _, obey_of_faulted hs _, obey_of_faulted (h.err.trans hs) _, h⟩

theorem Abreast.iter (h : Abreast keepX a b s t) (q : s.hasQuota) :
    BothNext (Abreast keepX a b) (iter s) (iter t) := by
  have q' : t.hasQuota := h.hasQuota_iff.mpr q
  have hlast : t.lastWord ↔ s.lastWord := by rw [State.lastWord, h.cnt]
  refine ⟨_, _, dif_pos q, dif_pos q', ?_⟩
  by_cases l : s.lastWord
  · rw [if_pos l, if_pos (hlast.mpr l)]
    exact (h.iterate q q').setBusy false
  · rw [if_neg l, if_neg (mt hlast.mp l)]
    exact h.iterate q q'

/-- A step keeps two engines abreast; R20's invariant is what lets `Iter` emit. -/
theorem Abreast.step (h : Abreast keepX a b s t) (hs : s.Inv) (hk : keepX → s.resetActive = false) :
    BothNext (Abreast keepX a b) (step s) (step t) := by
  cases hr : s.resetActive with
  | true =>
    have hdrop : ¬keepX := fun k => by simp [hk k] at hr
    exact ⟨_, _, step_of_reset hr, step_of_reset (h.resetActive.trans hr), h.passTime.resetEngine hdrop⟩
  | false =>
    have hr' : t.resetActive = false := h.resetActive.trans hr
    cases hb : s.busy with
    | true =>
      rw [step_of_busy hr hb, step_of_busy hr' (h.busy.trans hb)]
      exact h.passTime.iter (hs hb).1
    | false =>
      have hb' : t.busy = false := h.busy.trans hb
      cases ho : s.offers with
      | nil => exact ⟨_, _, step_of_noOffer hr hb ho, step_of_noOffer hr' hb' (h.offers.trans ho), h.passTime⟩
      | cons c rest =>
        rw [step_of_offer hr hb ho, step_of_offer hr' hb' (h.offers.trans ho)]
        exact h.passTime.acceptOffer.exec (decode c)

theorem Abreast.steps {k : Nat} (h : Abreast keepX a b s t) (hs : s.Inv) (hk : keepX → s.NoResetFor k) :
    BothNext (Abreast keepX a b) (steps k s) (steps k t) := by
  induction k generalizing s t with
  | zero => exact ⟨s, t, rfl, rfl, h⟩
  | succ k ih =>
    obtain ⟨s₁, t₁, hs₁, ht₁, h₁⟩ := h.step hs fun hx => ((noResetFor_succ_iff s k).mp (hk hx)).1
    rw [steps_succ_of_next hs₁, steps_succ_of_next ht₁]
    exact ih h₁ (step_keeps_inv hs hs₁) fun hx => noResetFor_of_step (hk hx) hs₁

end

/-- The step that may accept the `SEED` brings two ready engines abreast: the `SEED` overwrites `X` and `CNT`; a `Reset`
that falls there instead overwrites `CNT`. -/
theorem abreast_of_seed_offered {n : Word} {s t : State} {rest : List CmdWord} {keepX : Prop} (hs : s.Ready)
    (ht : t.Ready) (ho : s.offers = encode (.seed n) :: rest) (hto : t.offers = s.offers)
    (hr : t.resetLine = s.resetLine) (hk : keepX → s.resetActive = false) :
    BothNext (Abreast keepX s.out t.out) (step s) (step t) := by
  have hactive : t.resetActive = s.resetActive := resetActive_congr hr
  have hline : t.resetLine.tail = s.resetLine.tail := congrArg List.tail hr
  have hout : ∃ words, s.out = s.out ++ words ∧ t.out = t.out ++ words := ⟨[], by simp, by simp⟩
  cases ha : s.resetActive with
  | true =>
    have hdrop : ¬keepX := fun k => by simp [hk k] at ha
    exact ⟨_, _, step_of_reset ha, step_of_reset (hactive.trans ha), {
      cnt := rfl, busy := rfl, err := rfl, offers := hto, resetLine := hline
      x := fun hx => absurd hx (by simp [hdrop])
      out := hout }⟩
  | false =>
    exact ⟨_, _, step_of_seedOffer ha hs ho, step_of_seedOffer (hactive.trans ha) ht (hto.trans ho), {
      cnt := rfl, busy := ht.1.trans hs.1.symm, err := ht.2.trans hs.2.symm
      offers := congrArg List.tail hto, resetLine := hline
      x := fun _ => rfl
      out := hout }⟩

/-- Settles O45: the first step brings the two engines abreast, and every later step keeps them so. -/
theorem noStateIsCarriedAcrossASeed : Obligations.NoStateIsCarriedAcrossASeed := by
  unfold Obligations.NoStateIsCarriedAcrossASeed
  intro n s t rest k hs ht ho hto hr
  obtain ⟨s₁, t₁, hs₁, ht₁, h₁⟩ := abreast_of_seed_offered (keepX := s.NoResetFor (k + 1)) hs ht ho hto hr
    fun hn => ((noResetFor_succ_iff s k).mp hn).1
  have hinv : s₁.Inv := step_keeps_inv (inv_of_quiescent hs.1) hs₁
  obtain ⟨s', t', hs', ht', h⟩ := h₁.steps hinv fun hn => noResetFor_of_step hn hs₁
  obtain ⟨words, hsout, htout⟩ := h.out
  refine ⟨s', t', words, ?_, ?_, hsout, htout, ?_, h.x⟩
  · rw [steps_succ_of_next hs₁, hs']
  · rw [steps_succ_of_next ht₁, ht']
  · exact State.ext_fields rfl h.cnt h.busy h.err rfl h.offers h.resetLine rfl

/-! ### The status outputs (R18) -/

/-- `done` with the value of `W`. -/
theorem doneOut_iff (s : State) : s.doneOut = true ↔ s.cnt.val = 125 :=
  decide_eq_true_iff

theorem errOut_iff (s : State) : s.errOut = true ↔ s.err ≠ none :=
  Option.isSome_iff_ne_none

/-- `ecause` shows the code of `ERR` (R131). -/
theorem ecauseOut_cases (s : State) :
    (s.err = none ∧ s.ecauseOut = 0#2) ∨ (s.err = some .eReserved ∧ s.ecauseOut = 1#2) ∨
    (s.err = some .eOverrun ∧ s.ecauseOut = 2#2) := by
  unfold State.ecauseOut
  cases s.err with
  | none => exact .inl ⟨rfl, rfl⟩
  | some c =>
    cases c with
    | eReserved => exact .inr (.inl ⟨rfl, rfl⟩)
    | eOverrun => exact .inr (.inr ⟨rfl, rfl⟩)

/-- The codes of `ERR` are pairwise different, and 3 is none of them (R15). -/
theorem ecauseOut_iff (s : State) :
    (s.ecauseOut = 0#2 ↔ s.err = none) ∧ (s.ecauseOut = 1#2 ↔ s.err = some .eReserved) ∧
    (s.ecauseOut = 2#2 ↔ s.err = some .eOverrun) ∧ s.ecauseOut ≠ 3#2 := by
  obtain ⟨he, hc⟩ | ⟨he, hc⟩ | ⟨he, hc⟩ := ecauseOut_cases s <;> simp [he, hc]

theorem cmdReadyOut_iff (s : State) : s.cmdReadyOut = true ↔ s.busy = false :=
  (Bool.not_eq_true' s.busy).to_iff

/-- R20 excludes `BUSY = 1` at `CNT = W`. -/
theorem quiescent_of_done {s : State} (hs : s.Inv) (hd : s.doneOut = true) : s.busy = false := by
  rw [← Bool.not_eq_true]
  intro hb
  exact s.not_hasQuota_iff.mpr ((doneOut_iff s).mp hd) (hs hb).1

/-- Settles O40, output by output. -/
theorem statusOutputsAreFunctionsOfState : Obligations.StatusOutputsAreFunctionsOfState := by
  unfold Obligations.StatusOutputsAreFunctionsOfState
  intro s
  obtain ⟨hnone, hreserved, hoverrun, hnever⟩ := ecauseOut_iff s
  exact ⟨rfl, doneOut_iff s, errOut_iff s, hnone, hreserved, hoverrun, hnever, cmdReadyOut_iff s,
    quiescent_of_done, (doneOut_iff _).mpr rfl⟩

end Sys2Proof.Proofs

namespace Sys2Proof.Proofs

open Sys2Proof.Machine Sys2Proof.Laws

/-! ### The byte layout of a word in the block buffer (R33) -/

/-- `v[8j+7:8j]` as a digit of `v` to base 256 (00_scope.md section 7.1). -/
theorem wordByte_toNat (v : Word) (j : Nat) : (wordByte v j).toNat = v.toNat / 2 ^ (8 * j) % 256 := by
  rw [wordByte, BitVec.extractLsb'_toNat, Nat.shiftRight_eq_div_pow]

/-- A word is the sum of its four base 256 digits, each with its weight. -/
theorem word_toNat_eq_sum_wordByte (v : Word) : v.toNat =
    (wordByte v 0).toNat + 256 * (wordByte v 1).toNat + 65536 * (wordByte v 2).toNat +
      16777216 * (wordByte v 3).toNat := by
  have hv : v.toNat < 2 ^ 32 := v.isLt
  simp only [wordByte_toNat]
  omega

/-- The frame of `MemWrite`: only the four addresses from `addr` on are written. -/
theorem memWrite_getElem?_of_outside {buf : List Byte} {addr b : Nat} {v : Word} (h : b < addr ∨ addr + 4 ≤ b) :
    (memWrite buf addr v)[b]? = buf[b]? := by
  simp (disch := omega) only [memWrite, List.getElem?_set_ne]

/-- The four writes of `MemWrite` go to different addresses, so none of them overwrites another. -/
theorem memWrite_getElem?_byte {buf : List Byte} {addr j : Nat} (v : Word) (h : addr + 4 ≤ buf.length) (hj : j < 4) :
    (memWrite buf addr v)[addr + j]? = some (wordByte v j) := by
  have hin : addr + j < buf.length := by omega
  match j, hj with
  | 0, _ | 1, _ | 2, _ | 3, _ => simpa [memWrite, List.getElem?_set] using hin

/-- Settles O46: the four bytes written, the frame, the bytes' weights and the spec's example word. -/
theorem memWriteIsLittleEndian : Obligations.MemWriteIsLittleEndian := by
  unfold Obligations.MemWriteIsLittleEndian
  refine ⟨fun buf a v h => ⟨memWrite_length buf a v, fun j hj => ?_, fun b hb => ?_⟩,
    word_toNat_eq_sum_wordByte, by decide⟩
  · exact memWrite_getElem?_byte v h hj
  · exact memWrite_getElem?_of_outside hb

end Sys2Proof.Proofs

namespace Sys2Proof.Proofs

open Sys2Proof.Machine Sys2Proof.Laws

/-! ### The two fields of a command word (R50) -/

/-- The `op` of a command's word is the one R51 gives. -/
theorem opField_encode (i : Instr) : opField (encode i) = opcodeOf i :=
  opField_packFields _ _

/-- The `arg` of a command's word is its operand, 0 where R52 ignores it. -/
theorem argField_encode (i : Instr) : argField (encode i) = operandOf i :=
  argField_packFields _ _

/-- A word is made of its two fields. -/
theorem packFields_opField_argField (c : CmdWord) : packFields (opField c) (argField c) = c :=
  (BitVec.extractLsb'_append_extractLsb'_eq_extractLsb' rfl).trans BitVec.extractLsb'_eq_self

/-- The decoder reads the command of R51 off `op` alone. -/
theorem opcodeOf_decode (c : CmdWord) : opcodeOf (decode c) = opField c := by
  obtain h | h | h | h := op_cases (opField c)
  · rw [decode_of_op0 h, h]; rfl
  · rw [decode_of_op1 h, h]; rfl
  · rw [decode_of_op2 h, h]; rfl
  · rw [decode_of_op3 h, h]; rfl

/-- The decoder is R55's chain of cases on `op`. -/
theorem decode_eq_chain (c : CmdWord) : decode c =
    if opField c = 0#2 then .rsvd0
    else if opField c = 1#2 then .seed (argField c)
    else if opField c = 2#2 then .step
    else .run := by
  obtain h | h | h | h := op_cases (opField c)
  · simp [decode_of_op0 h, h]
  · simp [decode_of_op1 h, h]
  · simp [decode_of_op2 h, h]
  · simp [decode_of_op3 h, h]

/-! ### The rows of R51

All four masks select `op`, and each `match` has `arg` 0: a row is matched by the words that have its `op`. -/

/-- The mask of R51 keeps `op` and clears `arg`. -/
theorem packFields_and_mask (op : BitVec 2) (arg : Word) :
    packFields op arg &&& packFields 3#2 0#32 = packFields op 0#32 := by
  have hop : op &&& 3#2 = op := BitVec.and_allOnes
  rw [packFields, packFields, BitVec.and_append, hop, BitVec.and_zero]
  rfl

/-- Every row of R51 has the mask of `op`, and nothing outside `op` in its `match`. -/
theorem opcodeRows_shape : ∀ row ∈ opcodeRows,
    row.mask = packFields 3#2 0#32 ∧ row.matchBits = packFields (opField row.matchBits) 0#32 := by
  decide

theorem rowMatches_iff {row : OpcodeRow} (h : row ∈ opcodeRows) (c : CmdWord) :
    rowMatches c row = true ↔ opField row.matchBits = opField c := by
  obtain ⟨hmask, hmatch⟩ := opcodeRows_shape row h
  have hand : c &&& row.mask = packFields (opField c) 0#32 := by
    rw [hmask, ← packFields_opField_argField c, packFields_and_mask, opField_packFields]
  rw [rowMatches, beq_iff_eq, hand]
  constructor
  · intro heq
    rw [← heq, opField_packFields]
  · intro hop
    rw [hmatch, hop]

/-- The `op`s of the four rows are the four values of `op`. -/
theorem opcodeRows_filter_op_length (op : BitVec 2) :
    (opcodeRows.filter fun row => opField row.matchBits = op).length = 1 := by
  revert op
  decide

/-- Exactly one row matches a word. -/
theorem opcodeRows_filter_rowMatches_length (c : CmdWord) : (opcodeRows.filter (rowMatches c)).length = 1 := by
  rw [← opcodeRows_filter_op_length (opField c)]
  congr 1
  refine List.filter_congr fun row h => ?_
  rw [Bool.eq_iff_iff, rowMatches_iff h, decide_eq_true_iff]

/-- The row named after a command is the row with the command's `op`. -/
theorem mnemonic_eq_iff (i : Instr) :
    ∀ row ∈ opcodeRows, row.mnemonic = mnemonicOf i ↔ opField row.matchBits = opcodeOf i := by
  cases i with
  | rsvd0 => decide
  | seed n =>
    rw [mnemonicOf, opcodeOf]
    decide
  | step => decide
  | run => decide

/-- Settles O1: a row matches by its `op` alone, which is the `op` of the decoded command. -/
theorem decodingIsTotalAndUnambiguous : Obligations.DecodingIsTotalAndUnambiguous := by
  unfold Obligations.DecodingIsTotalAndUnambiguous
  refine fun c => ⟨opcodeRows_filter_rowMatches_length c, fun row h => ?_, decode_eq_chain c⟩
  rw [rowMatches_iff h, mnemonic_eq_iff _ row h, opcodeOf_decode]

/-! ### The operand (R52) -/

/-- Settles O3: the decoder looks at `arg` for `SEED` only, and `SEED` loads it. -/
theorem operandIsUsedAsItStandsOrIgnored : Obligations.OperandIsUsedAsItStandsOrIgnored := by
  unfold Obligations.OperandIsUsedAsItStandsOrIgnored
  refine ⟨fun arg => ⟨?_, decode_encode (.seed arg), ?_, ?_, fun s hs => ?_⟩,
    argField_encode .rsvd0, argField_encode .step, argField_encode .run⟩
  · exact decode_of_op0 (opField_packFields _ _)
  · exact decode_of_op2 (opField_packFields _ _)
  · exact decode_of_op3 (opField_packFields _ _)
  · exact ⟨loadSeed s arg, exec_of_noFault hs.2 (.seed arg), loadSeed_x s arg⟩

/-! ### The range of a seed (R59) -/

theorem seedFits_iff (n : Int) : seedFits n = true ↔ 0 ≤ n ∧ n < 2 ^ 32 := by
  simp only [seedFits, Bool.and_eq_true, decide_eq_true_eq]

theorem assembleSource_seed_of_fits {n : Int} (h : seedFits n = true) :
    assembleSource (.seed n) = .ok [encode (.seed (BitVec.ofInt 32 n))] :=
  if_pos h

theorem assembleSource_seed_of_not_fits {n : Int} (h : ¬seedFits n = true) :
    assembleSource (.seed n) = .error .seedOutOfRange :=
  if_neg h

theorem assembleSource_block_of_not_fits {n : Int} (h : ¬seedFits n = true) :
    assembleSource (.block n) = .error .seedOutOfRange :=
  if_neg h

/-- A seed that fits is not reduced by its conversion to a word. -/
theorem toNat_ofInt_of_fits {n : Int} (h : seedFits n = true) : ((BitVec.ofInt 32 n).toNat : Int) = n := by
  obtain ⟨hlow, hhigh⟩ := (seedFits_iff n).mp h
  rw [BitVec.toNat_ofInt]
  omega

/-- Settles O5: `seedFits` is the range of R59, and inside it the seed's word holds the seed itself. -/
theorem seedOutside32BitsIsRejected : Obligations.SeedOutside32BitsIsRejected := by
  unfold Obligations.SeedOutside32BitsIsRejected
  intro n
  rw [← seedFits_iff]
  constructor
  · intro h
    refine ⟨_, assembleSource_seed_of_fits h, opField_encode _, ?_⟩
    rw [argField_encode]
    exact toNat_ofInt_of_fits h
  · exact fun h => ⟨assembleSource_seed_of_not_fits h, assembleSource_block_of_not_fits h⟩

end Sys2Proof.Proofs

namespace Sys2Proof.Proofs

open Sys2Proof.Machine Sys2Proof.Laws

/-! ### The product and its remainder (R72, R73, R74) -/

/-- The product in the spec's order, with the value of `A` (R71). -/
theorem product_eq (x : Word) : product x = x.toNat * 1815976680 :=
  Nat.mul_comm Config.multiplier x.toNat

/-- The product is largest at `x = 2^32 − 1` (R73). -/
theorem product_le (x : Word) : product x ≤ 7799560449082680600 := by
  have hx : x.toNat < 2 ^ 32 := x.isLt
  rw [product_eq]
  omega

/-- The product has at most 63 bits (R73). -/
theorem product_lt (x : Word) : product x < 2 ^ 63 :=
  Nat.lt_of_le_of_lt (product_le x) (by decide)

/-- `f` is the remainder of the product, with the value of `M` (R72). -/
theorem modmul_toNat_eq_product_mod (x : Word) : (modmul x).toNat = product x % 4294967291 :=
  toNat_ofNat_mod (product x)

/-- The values of `f` are below `M` (R74). -/
theorem modmul_toNat_lt (x : Word) : (modmul x).toNat < 4294967291 := by
  rw [modmul_toNat_eq_product_mod]
  exact Nat.mod_lt _ (by decide)

/-- Settles O9: `f` is the remainder of the product, and a remainder is what the quotient leaves. -/
theorem modmulIsTheExactRemainder : Obligations.ModmulIsTheExactRemainder := by
  unfold Obligations.ModmulIsTheExactRemainder
  intro x
  have hmod : (modmul x).toNat = x.toNat * 1815976680 % 4294967291 := by
    rw [modmul_toNat_eq_product_mod, product_eq]
  exact ⟨hmod, Nat.le_of_lt_succ (modmul_toNat_lt x), hmod.trans Nat.mod_eq_sub_div_mul⟩

/-! ### The multiplier in 64 bits (R73) -/

/-- The product in 64 bits does not wrap. -/
theorem product64_toNat (x : Word) :
    (x.setWidth 64 * BitVec.ofNat 64 Config.multiplier).toNat = product x := by
  have hx : (x.setWidth 64).toNat = x.toNat := BitVec.toNat_setWidth_of_le (by decide)
  have hA : (BitVec.ofNat 64 Config.multiplier).toNat = 1815976680 := by decide
  have hfits : x.toNat * 1815976680 < 2 ^ 64 := by
    rw [← product_eq]
    exact Nat.lt_trans (product_lt x) (by decide)
  rw [BitVec.toNat_mul, hx, hA, Nat.mod_eq_of_lt hfits, product_eq]

/-- The product in 64 bits has its sign bit clear, so that read as signed it is still the product. -/
theorem product64_toInt (x : Word) :
    (x.setWidth 64 * BitVec.ofNat 64 Config.multiplier).toInt = (product x : Int) := by
  have hsign : 2 * (x.setWidth 64 * BitVec.ofNat 64 Config.multiplier).toNat < 2 ^ 64 := by
    have hp : product x < 2 ^ 63 := product_lt x
    rw [product64_toNat]
    omega
  rw [BitVec.toInt_eq_toNat_of_lt hsign, product64_toNat]

/-- The 64-bit multiplier is `f`. -/
theorem modmul64_eq_modmul (x : Word) : modmul64 x = modmul x := by
  have hM : (BitVec.ofNat 64 Config.modulus).toNat = Config.modulus := by decide
  apply BitVec.eq_of_toNat_eq
  rw [modmul64, BitVec.toNat_setWidth, BitVec.toNat_umod, product64_toNat, hM, modmul, BitVec.toNat_ofNat]

/-- Settles O10: the product stays below `2^63`; at `x = 3` its low 32 bits alone leave another remainder. -/
theorem productNeedsSixtyThreeBits : Obligations.ProductNeedsSixtyThreeBits := by
  unfold Obligations.ProductNeedsSixtyThreeBits
  refine ⟨fun x => ⟨product_le x, product_lt x, ?_, ?_, modmul64_eq_modmul x⟩,
    ⟨4294967295#32, by decide⟩, ⟨3#32, by decide⟩⟩
  · rw [product64_toNat, product_eq]
  · rw [product64_toInt, product_eq]

/-! ### The multiplier without a divider (R82) -/

/-- A fold keeps the remainder modulo `M`, since `2^32 = M + 5`. -/
theorem fold5_mod (v : Nat) : fold5 v % Config.modulus = v % Config.modulus := by
  unfold fold5 Config.modulus
  omega

/-- A fold is bounded by the part it folds in. -/
theorem fold5_le {v h : Nat} (hv : v / 2 ^ 32 ≤ h) : fold5 v ≤ 5 * h + 4294967295 := by
  unfold fold5
  omega

/-- One conditional subtraction reduces a number below `2 M`. -/
theorem subtractOnce_eq_mod {u : Nat} (hu : u < 2 * Config.modulus) : subtractOnce u = u % Config.modulus := by
  unfold subtractOnce
  split
  · next hle => rw [Nat.mod_eq_sub_mod hle, Nat.mod_eq_of_lt (by omega)]
  · next hlt => rw [Nat.mod_eq_of_lt (by omega)]

theorem product_high_le (x : Word) : product x / 2 ^ 32 ≤ 1815976679 :=
  Nat.div_le_div_right (product_le x)

/-- R82's `t` has at most 34 bits. -/
theorem fold5_product_le (x : Word) : fold5 (product x) ≤ 13374850690 :=
  fold5_le (product_high_le x)

theorem fold5_product_high_le (x : Word) : fold5 (product x) / 2 ^ 32 ≤ 3 :=
  Nat.div_le_div_right (fold5_product_le x)

/-- R82's `u` is less than `2 M`. -/
theorem fold5_fold5_product_le (x : Word) : fold5 (fold5 (product x)) ≤ 2 ^ 32 + 14 :=
  fold5_le (fold5_product_high_le x)

/-- Two folds and one conditional subtraction leave the remainder of the product. -/
theorem subtractOnce_fold5_fold5_product (x : Word) :
    subtractOnce (fold5 (fold5 (product x))) = product x % Config.modulus := by
  have hu : fold5 (fold5 (product x)) < 2 * Config.modulus :=
    Nat.lt_of_le_of_lt (fold5_fold5_product_le x) (by decide)
  rw [subtractOnce_eq_mod hu, fold5_mod, fold5_mod]

/-- The multiplier without a divider is `f`. -/
theorem modmulFolded_eq_modmul (x : Word) : modmulFolded x = modmul x := by
  rw [modmulFolded, subtractOnce_fold5_fold5_product, modmul]

/-- Settles O11: each step is within R82's bound, and keeps the remainder of the product. -/
theorem foldingEqualsModmul : Obligations.FoldingEqualsModmul := by
  unfold Obligations.FoldingEqualsModmul
  refine ⟨fun x => ⟨product_lt x, product_high_le x, fold5_product_le x, fold5_product_high_le x,
    fold5_fold5_product_le x, ?_, modmulFolded_eq_modmul x⟩, by decide⟩
  rw [subtractOnce_fold5_fold5_product]
  exact Nat.mod_lt _ modulus_pos

/-! ### The closed form of the iteration (R80) -/

/-- After at least one iteration the state is reduced, and is the closed form. -/
theorem iterated_succ_toNat (n : Word) (k : Nat) :
    (iterated (k + 1) n).toNat = n.toNat * Config.multiplier ^ (k + 1) % Config.modulus := by
  induction k with
  | zero => rw [iterated_succ, iterated, modmul_toNat, Nat.pow_one]
  | succ k ih => rw [iterated_succ, modmul_toNat, ih, Nat.mod_mul_mod, Nat.mul_assoc, ← Nat.pow_succ]

/-- `A^125 mod M` (R80). -/
theorem multiplier_pow_quota_mod : 1815976680 ^ 125 % 4294967291 = 3416151828 := by
  decide

/-- Settles O15: by induction on the iterations; the last word's factor is reduced first. -/
theorem iterationHasAClosedForm : Obligations.IterationHasAClosedForm := by
  unfold Obligations.IterationHasAClosedForm
  have hclosed (n : Word) (k : Nat) (hk : 1 ≤ k) :
      (iterated k n).toNat = n.toNat * 1815976680 ^ k % 4294967291 := by
    obtain ⟨j, rfl⟩ := Nat.exists_eq_add_of_le' hk
    exact iterated_succ_toNat n j
  refine ⟨hclosed, multiplier_pow_quota_mod, fun n => ?_⟩
  rw [hclosed n 125 (by decide), Nat.mul_mod, multiplier_pow_quota_mod, Nat.mod_mul_mod]

end Sys2Proof.Proofs

namespace Sys2Proof.Proofs

open Sys2Proof.Machine Sys2Proof.Laws

/-! ### The number of a command word (R50) -/

/-- `c = op * 2^32 + arg` as numbers: the two fields do not overlap. -/
theorem packFields_toNat (op : BitVec 2) (arg : Word) :
    (packFields op arg).toNat = op.toNat * 2 ^ 32 + arg.toNat := by
  rw [packFields, BitVec.toNat_append, ← Nat.shiftLeft_add_eq_or_of_lt arg.isLt, Nat.shiftLeft_eq]

theorem encode_toNat (i : Instr) : (encode i).toNat = (opcodeOf i).toNat * 2 ^ 32 + (operandOf i).toNat :=
  packFields_toNat _ _

/-! ### The commands of the state register (R91, R93) -/

/-- A command is discarded while any fault stays (R133). -/
theorem exec_of_fault {s : State} (h : s.err ≠ none) (i : Instr) : exec i s = .next s := by
  obtain ⟨c, hc⟩ := Option.ne_none_iff_exists'.mp h
  rw [exec_eq_obey, obey_of_faulted hc]

/-- `SEED` sets `CNT` to 0, so `done` is 0 (R18, R91). -/
theorem doneOut_loadSeed (s : State) (n : Word) : (loadSeed s n).doneOut = false :=
  rfl

/-- `SEED` does not start the unroller. -/
theorem busyOut_loadSeed (s : State) (n : Word) : (loadSeed s n).busyOut = s.busy :=
  rfl

/-- `err` is 1 after fault entry (R18, R132). -/
theorem errOut_raiseFault (s : State) (c : Cause) : (raiseFault s c).errOut = true :=
  rfl

/-- `ecause` shows the code of the fault raised (R131, R132). -/
theorem ecauseOut_raiseFault (s : State) (c : Cause) : (raiseFault s c).ecauseOut = c.code :=
  rfl

/-- Settles O16: the word by the two fields' values, and the next state by `loadSeed`'s two writes. -/
theorem seedLoadsTheStateRegister : Obligations.SeedLoadsTheStateRegister := by
  unfold Obligations.SeedLoadsTheStateRegister
  rintro n s ⟨hb, he⟩
  have hword : (encode (.seed n)).toNat = 0x100000000 + n.toNat := by
    simp [encode_toNat, opcodeOf, operandOf]
  have hnext : exec (.seed n) s = .next (loadSeed s n) := exec_of_noFault he (.seed n)
  exact ⟨hword, loadSeed s n, hnext, rfl, doneOut_loadSeed s n, (busyOut_loadSeed s n).trans hb⟩

/-- Settles O19: `op` alone selects `RSVD0`, which enters the fault from a ready engine and is discarded by a faulted one. -/
theorem reservedCommandFaults : Obligations.ReservedCommandFaults := by
  unfold Obligations.ReservedCommandFaults
  refine ⟨fun arg => decode_of_op0 (opField_packFields 0#2 arg), fun s ⟨_, he⟩ => ?_, fun s h => exec_of_fault h .rsvd0⟩
  have hnext : exec .rsvd0 s = .next (raiseFault s .eReserved) := exec_of_noFault he .rsvd0
  exact ⟨raiseFault s .eReserved, hnext, rfl, errOut_raiseFault s .eReserved, ecauseOut_raiseFault s .eReserved⟩

end Sys2Proof.Proofs

namespace Sys2Proof.Proofs

open Sys2Proof.Machine Sys2Proof.Laws

/-! ### The unroller: `RUN`, its `Iter` steps, and `STEP` unrolled (R110 to R113)

A run of the unroller and a row of `STEP` commands change the same registers in the same way. `afterWords` says how, and
each of the two is one induction over the words that are emitted. -/

/-- The engine after `k` iterations that leave `CNT` at `c`: `X`, `CNT` and `OUT` as R113 gives them. -/
def afterWords (s : State) (k : Nat) (c : Count) : State :=
  { s with x := iterated k s.x, cnt := c, out := s.out ++ wordsFrom k s.x }

/-- No iteration changes nothing. -/
theorem afterWords_zero {s : State} {c : Count} (hc : c.val = s.cnt.val) : afterWords s 0 c = s :=
  State.ext_fields rfl (Fin.ext hc) rfl rfl (List.append_nil _) rfl rfl rfl

/-- The word of one iteration and the words of `k` more are the words of `k + 1`. -/
theorem append_wordsFrom_succ (out : List Word) (k : Nat) (x : Word) :
    out ++ [modmul x] ++ wordsFrom k (modmul x) = out ++ wordsFrom (k + 1) x :=
  List.append_assoc _ _ _

/-- A busy engine's `Iter`: one iteration, and `BUSY` stays 1 unless the word was the last (R111). -/
theorem iter_of_busy {s : State} (q : s.hasQuota) (b : s.busy = true) :
    iter s = .next ((iterate s q).setBusy (decide (s.cnt.val + 1 ≠ 125))) := by
  rw [iter, dif_pos q]
  by_cases l : s.lastWord
  · rw [if_pos l, decide_eq_false (not_not_intro (s.lastWord_iff.mp l))]
  · rw [if_neg l, decide_eq_true (mt s.lastWord_iff.mpr l), ← b]
    rfl

/-- The step of a busy engine without a `Reset` is such an `Iter`. -/
theorem step_iterates_of_busy {s : State} (q : s.hasQuota) (hr : s.resetActive = false) (b : s.busy = true) :
    step s = .next ((iterate s.passTime q).setBusy (decide (s.cnt.val + 1 ≠ 125))) := by
  rw [step_of_busy hr b]
  exact iter_of_busy (s := s.passTime) q b

theorem nextMove_eq_iter_iff (s : State) : nextMove s = .iter ↔ s.resetActive = false ∧ s.busy = true := by
  constructor
  · intro h
    cases hr : s.resetActive with
    | true => rw [nextMove_of_reset hr] at h; cases h
    | false =>
      cases hb : s.busy with
      | true => exact ⟨rfl, rfl⟩
      | false =>
        cases ho : s.offers with
        | nil => rw [nextMove_of_noOffer hr hb ho] at h; cases h
        | cons c rest => rw [nextMove_of_offer hr hb ho] at h; cases h
  · rintro ⟨hr, hb⟩
    exact nextMove_of_busy hr hb

/-- Settles O22: the move by R117's order, and the state by `Iter`'s equation. -/
theorem iterEmitsOneWordAndEndsTheLoop : Obligations.IterEmitsOneWordAndEndsTheLoop := by
  unfold Obligations.IterEmitsOneWordAndEndsTheLoop
  exact ⟨nextMove_eq_iter_iff, fun s q hr hb => step_iterates_of_busy q hr hb⟩

/-- `CNT` never exceeds `W` (R13). -/
theorem count_le (c : Count) : c.val ≤ 125 :=
  Nat.lt_succ_iff.mp c.isLt

/-- `BUSY` is 1 exactly while a word remains: so after an accepted `RUN`, and during its `Iter` steps. -/
def Unrolling (s : State) : Prop :=
  s.busy = decide (s.cnt.val ≠ 125)

theorem unrolling_of_busy {s : State} (hb : s.busy = true) (hs : s.Inv) : Unrolling s := by
  have q : s.cnt.val < 125 := (hs hb).1
  rw [Unrolling, hb, decide_eq_true (Nat.ne_of_lt q)]

/-- `j` steps of the unroller, no `Reset` among them, emit `j` words and accept no command (R111, R112). -/
theorem steps_of_unrolling {j : Nat} {s : State} {c : Count} (hu : Unrolling s) (hc : c.val = s.cnt.val + j)
    (hn : s.NoResetFor j) :
    steps j s = .next
      { afterWords s j c with busy := decide (c.val ≠ 125), resetLine := s.resetLine.drop j } := by
  induction j generalizing s with
  | zero =>
    have hbusy : decide (c.val ≠ 125) = s.busy := by rw [hu, hc, Nat.add_zero]
    rw [afterWords_zero hc, hbusy]
    rfl
  | succ j ih =>
    have hle : c.val ≤ 125 := count_le c
    have q : s.cnt.val < 125 := by omega
    have hb : s.busy = true := by rw [hu, decide_eq_true (Nat.ne_of_lt q)]
    have hstep := step_iterates_of_busy q ((noResetFor_succ_iff s j).mp hn).1 hb
    have hcnt : c.val = s.cnt.val + 1 + j := by omega
    have hu' : Unrolling ((iterate s.passTime q).setBusy (decide (s.cnt.val + 1 ≠ 125))) := rfl
    rw [steps_succ_of_next hstep, ih hu' hcnt (noResetFor_of_step hn hstep)]
    refine congrArg Host.Outcome.next ?_
    exact State.ext_fields rfl rfl rfl rfl (append_wordsFrom_succ _ _ _) rfl List.drop_tail rfl

/-- An engine that is offered a command, without a fault or a `Reset`, takes the word and has the command's effect. -/
theorem step_of_readyOffer {s : State} {i : Instr} {rest : List CmdWord} (hr : s.resetActive = false) (hs : s.Ready)
    (ho : s.offers = encode i :: rest) : step s = .next (effectOf i s.passTime.acceptOffer) := by
  rw [step_of_offer hr hs.1 ho, decode_encode]
  exact exec_of_noFault (s := s.passTime.acceptOffer) hs.2 i

/-- `k` accepted `STEP`s, no `Reset` among them, emit `k` words (R92, R113). -/
theorem steps_of_stepOffers {k : Nat} {s : State} {c : Count} {rest : List CmdWord} (hs : s.Ready)
    (ho : s.offers = List.replicate k (encode .step) ++ rest) (hc : c.val = s.cnt.val + k) (hn : s.NoResetFor k) :
    steps k s = .next { afterWords s k c with offers := rest, resetLine := s.resetLine.drop k } := by
  induction k generalizing s with
  | zero =>
    have hrest : rest = s.offers := ho.symm
    rw [afterWords_zero hc, hrest]
    rfl
  | succ k ih =>
    have hle : c.val ≤ 125 := count_le c
    have q : s.cnt.val < 125 := by omega
    have hstep := step_of_readyOffer ((noResetFor_succ_iff s k).mp hn).1 hs ho
    rw [effectOf_step_of_quota (s := s.passTime.acceptOffer) q] at hstep
    have hoffers : s.offers.tail = List.replicate k (encode .step) ++ rest := congrArg List.tail ho
    have hcnt : c.val = s.cnt.val + 1 + k := by omega
    rw [steps_succ_of_next hstep,
      ih (s := iterate s.passTime.acceptOffer q) hs hoffers hcnt (noResetFor_of_step hn hstep)]
    refine congrArg Host.Outcome.next ?_
    exact State.ext_fields rfl rfl rfl rfl (append_wordsFrom_succ _ _ _) rfl List.drop_tail rfl

/-- `RUN` sets `BUSY` exactly where a word remains (R110). -/
theorem effectOf_run_of_ready {s : State} (hs : s.Ready) :
    effectOf .run s = s.setBusy (decide (s.cnt.val ≠ 125)) := by
  by_cases q : s.hasQuota
  · have hne : s.cnt.val ≠ 125 := Nat.ne_of_lt q
    rw [effectOf_run_of_quota q, decide_eq_true hne]
  · rw [effectOf_run_of_spent q, decide_eq_false (not_not_intro (s.not_hasQuota_iff.mp q)), ← hs.1]
    rfl

/-- An accepted `RUN` and the `Iter` steps it causes, no `Reset` among them, emit the words that remain (R113). -/
theorem steps_of_runOffer {k : Nat} {s : State} {rest : List CmdWord} (hs : s.Ready)
    (ho : s.offers = encode .run :: rest) (hk : s.cnt.val + k = 125) (hn : s.NoResetFor (k + 1)) :
    steps (k + 1) s = .next
      { afterWords s k Count.spent with offers := rest, resetLine := s.resetLine.drop (k + 1) } := by
  have hstep := step_of_readyOffer ((noResetFor_succ_iff s k).mp hn).1 hs ho
  rw [effectOf_run_of_ready (s := s.passTime.acceptOffer) hs] at hstep
  have hu : Unrolling (s.passTime.acceptOffer.setBusy (decide (s.passTime.acceptOffer.cnt.val ≠ 125))) := rfl
  have hend : Count.spent.val = s.cnt.val + k := hk.symm
  rw [steps_succ_of_next hstep, steps_of_unrolling hu hend (noResetFor_of_step hn hstep)]
  refine congrArg Host.Outcome.next ?_
  exact State.ext_fields rfl rfl hs.1.symm rfl rfl (congrArg List.tail ho) List.drop_tail rfl

theorem noResetFor_of_le {s : State} {j k : Nat} (hn : s.NoResetFor k) (hjk : j ≤ k) : s.NoResetFor j :=
  fun h => hn ((List.take_prefix_take_left hjk).subset h)

/-- Settles O41: the unroller's steps, stopped before the last word and at it. -/
theorem everyRunEndsAfterTheRemainingWords : Obligations.EveryRunEndsAfterTheRemainingWords := by
  unfold Obligations.EveryRunEndsAfterTheRemainingWords
  intro s hb hs hn
  have hu : Unrolling s := unrolling_of_busy hb hs
  constructor
  · intro j hj
    have hlt : s.cnt.val + j < 125 := by omega
    have hbusy : decide (s.cnt.val + j ≠ 125) = true := decide_eq_true (Nat.ne_of_lt hlt)
    exact ⟨_, steps_of_unrolling (c := ⟨s.cnt.val + j, Nat.lt_succ_of_lt hlt⟩) hu rfl
      (noResetFor_of_le hn (Nat.le_of_lt hj)), hbusy, rfl, rfl⟩
  · have hend : Count.spent.val = s.cnt.val + (125 - s.cnt.val) := (Nat.add_sub_of_le s.cnt_le).symm
    exact ⟨_, steps_of_unrolling hu hend hn, rfl, rfl, rfl⟩

/-- After at least one iteration the state is R80's closed form. -/
theorem iterated_succ_eq_closedForm (n : Word) (k : Nat) : iterated (k + 1) n = closedForm n (k + 1) := by
  apply BitVec.eq_of_toNat_eq
  rw [iterated_succ_toNat, closedForm, toNat_ofNat_mod, Nat.mul_comm]

/-- Settles O42: both runs end in `afterWords`. -/
theorem runIsStepUnrolled : Obligations.RunIsStepUnrolled := by
  unfold Obligations.RunIsStepUnrolled
  intro s k rest hs hk hn
  refine ⟨steps_of_runOffer (s := { s with offers := encode .run :: rest }) hs rfl hk hn,
    steps_of_stepOffers (s := { s with offers := List.replicate k (encode .step) ++ rest }) hs rfl hk.symm
      (noResetFor_of_le hn (Nat.le_succ k)), fun hpos => ?_⟩
  obtain ⟨j, rfl⟩ := Nat.exists_eq_add_of_le' hpos
  exact iterated_succ_eq_closedForm s.x j

/-- The words of `k` iterations are R80's closed forms. -/
theorem wordsFrom_eq_closedForms (k : Nat) (n : Word) :
    wordsFrom k n = (List.range k).map fun j => closedForm n (j + 1) := by
  induction k with
  | zero => rfl
  | succ k ih => rw [wordsFrom_succ, ih, iterated_succ_eq_closedForm, List.range_succ, List.map_append,
      List.map_singleton]

/-! ### The words of a block in the host's buffer (R33, R34, R153) -/

/-- A word written behind `front` takes the place of the next four bytes. -/
theorem memWrite_append {front back : List Byte} {addr : Nat} (ha : front.length = addr) (h : 4 ≤ back.length)
    (v : Word) : memWrite (front ++ back) addr v = front ++ wordBytes v ++ back.drop 4 := by
  obtain _ | ⟨b0, _ | ⟨b1, _ | ⟨b2, _ | ⟨b3, back⟩⟩⟩⟩ := back
  case cons.cons.cons.cons => simp [memWrite, wordBytes, ← ha]
  all_goals simp at h

/-- The words stored behind `front` fill the buffer to its end. -/
theorem storeWords_append {words : List Word} {k : Nat} {front back : List Byte} (hf : front.length = wordOffset k)
    (hb : back.length = 4 * words.length) :
    storeWords k (front ++ back) words = front ++ words.flatMap wordBytes := by
  induction words generalizing k front back with
  | nil => rw [storeWords, List.eq_nil_of_length_eq_zero hb, List.flatMap_nil]
  | cons v words ih =>
    rw [List.length_cons] at hb
    have hfront : (front ++ wordBytes v).length = wordOffset (k + 1) := by
      rw [List.length_append, wordBytes_length, hf]
      unfold wordOffset
      omega
    have hback : (back.drop 4).length = 4 * words.length := by
      rw [List.length_drop]
      omega
    rw [storeWords, memWrite_append hf (by omega), ih hfront hback, List.flatMap_cons, List.append_assoc]

/-- The header is the tag and the block index, twelve bytes (R34). -/
theorem storeHeader_eq {buf : List Byte} (h : 12 ≤ buf.length) (n : Word) :
    storeHeader buf n = wordBytes tagWords.1 ++ wordBytes tagWords.2 ++ wordBytes n ++ buf.drop 12 := by
  have h0 : memWrite buf 0 tagWords.1 = wordBytes tagWords.1 ++ buf.drop 4 :=
    memWrite_append (front := []) rfl (by omega) _
  have h4 : 4 ≤ (buf.drop 4).length := by rw [List.length_drop]; omega
  have h8 : 4 ≤ ((buf.drop 4).drop 4).length := by rw [List.length_drop, List.length_drop]; omega
  rw [storeHeader, h0, memWrite_append (addr := 4) rfl h4, memWrite_append (addr := 8) rfl h8, List.drop_drop,
    List.drop_drop]

/-- A buffer of a block's size, whatever it held, becomes the tag, the index and the words of the block (R34, R153). -/
theorem fillBlock_eq {buf : List Byte} {words : List Word} (hbuf : buf.length = 512) (hw : words.length = 125)
    (n : Word) :
    fillBlock buf n words =
      wordBytes tagWords.1 ++ wordBytes tagWords.2 ++ wordBytes n ++ words.flatMap wordBytes := by
  have hback : (buf.drop 12).length = 4 * words.length := by rw [List.length_drop, hbuf, hw]
  rw [fillBlock, storeHeader_eq (by omega), storeWords_append rfl hback]

theorem blockBytes_length (n : Word) : (blockBytes n).length = 512 := by
  simp only [blockBytes, List.length_append, wordBytes_length, flatMap_wordBytes_length, wordsFrom_length, quota_eq]

/-- `SEED n`, `RUN` and the `Iter` steps it causes, no `Reset` among them, emit the words of block `n` (R114). The
number of words stands as `k`, so that checking the lemma evaluates no iteration. -/
theorem steps_of_blockOffer {n : Word} {s : State} {rest : List CmdWord} {k : Nat} (hk : k = 125) (hs : s.Ready)
    (ho : s.offers = blockCommands n ++ rest) (hn : s.NoResetFor (k + 2)) :
    steps (k + 2) s = .next
      { s with
        x := iterated k n
        cnt := Count.spent
        out := s.out ++ wordsFrom k n
        offers := rest
        resetLine := s.resetLine.drop (k + 2) } := by
  have hseed := step_of_seedOffer ((noResetFor_succ_iff s (k + 1)).mp hn).1 hs ho
  have hrun : s.offers.tail = encode .run :: rest := congrArg List.tail ho
  have hcnt : 0 + k = 125 := (Nat.zero_add k).trans hk
  rw [steps_succ_of_next hseed, steps_of_runOffer (s := loadSeed s.passTime.acceptOffer n) hs hrun hcnt
    (noResetFor_of_step hn hseed)]
  refine congrArg Host.Outcome.next ?_
  exact State.ext_fields rfl rfl rfl rfl rfl rfl List.drop_tail rfl

/-- Settles O43: `SEED` loads the block's seed, `RUN` emits its words, and the host's buffer takes them. -/
theorem blockEmitsItsWords : Obligations.BlockEmitsItsWords := by
  unfold Obligations.BlockEmitsItsWords
  intro n s rest hs ho hn
  have hx : closedForm n 125 = iterated 125 n := (iterated_succ_eq_closedForm n 124).symm
  rw [hx, ← wordsFrom_eq_closedForms 125 n]
  exact ⟨steps_of_blockOffer rfl hs ho hn, fun buf hbuf =>
    ⟨fillBlock_eq hbuf (wordsFrom_length 125 n) n, blockBytes_length n⟩⟩

end Sys2Proof.Proofs

namespace Sys2Proof.Proofs

open Sys2Proof.Machine Sys2Proof.Laws

/-! ### Fault entry (R131, R132) -/

/-- The fault that a command raises when an engine without a fault accepts it (R131). -/
def faultOf (i : Instr) (s : State) : Option Cause :=
  match i with
  | .rsvd0 => some .eReserved
  | .seed _ => none
  | .step => if s.hasQuota then none else some .eOverrun
  | .run => none

theorem faultOf_step_of_quota {s : State} (q : s.hasQuota) : faultOf .step s = none :=
  if_pos q

theorem faultOf_step_of_spent {s : State} (q : ¬s.hasQuota) : faultOf .step s = some .eOverrun :=
  if_neg q

/-- A command that raises a fault has fault entry as its whole effect. -/
theorem effectOf_eq_raiseFault {i : Instr} {s : State} {c : Cause} (h : faultOf i s = some c) :
    effectOf i s = raiseFault s c := by
  cases i with
  | rsvd0 => cases h; rfl
  | seed n => cases h
  | step =>
    by_cases q : s.hasQuota
    · rw [faultOf_step_of_quota q] at h
      cases h
    · rw [faultOf_step_of_spent q] at h
      cases h
      exact effectOf_step_of_spent q
  | run => cases h

/-- A command that raises no fault leaves `ERR` alone. -/
theorem effectOf_err_of_faultOf_none {i : Instr} {s : State} (h : faultOf i s = none) : (effectOf i s).err = s.err := by
  cases i with
  | rsvd0 => cases h
  | seed n => rfl
  | step =>
    by_cases q : s.hasQuota
    · rw [effectOf_step_of_quota q, iterate_err]
    · rw [faultOf_step_of_spent q] at h
      cases h
  | run =>
    by_cases q : s.hasQuota
    · rw [effectOf_run_of_quota q, State.setBusy_err]
    · rw [effectOf_run_of_spent q]

/-- From `ERR = 0`, a command leaves in `ERR` the fault it raises. -/
theorem effectOf_err {s : State} (hs : s.err = none) (i : Instr) : (effectOf i s).err = faultOf i s := by
  cases h : faultOf i s with
  | none => rw [effectOf_err_of_faultOf_none h, hs]
  | some c => rw [effectOf_eq_raiseFault h, raiseFault_err]

theorem faultOf_eq_eReserved_iff (i : Instr) (s : State) : faultOf i s = some .eReserved ↔ i = .rsvd0 := by
  cases i <;> simp [faultOf]

theorem faultOf_eq_eOverrun_iff (i : Instr) (s : State) :
    faultOf i s = some .eOverrun ↔ i = .step ∧ s.cnt.val = 125 := by
  rw [← s.not_hasQuota_iff]
  cases i <;> simp [faultOf]

/-- `Iter` neither raises nor clears a fault. -/
theorem iter_err {s t : State} (h : iter s = .next t) : t.err = s.err := by
  obtain ⟨q, ⟨-, rfl⟩ | ⟨-, rfl⟩⟩ := iter_cases h <;> rfl

/-- Settles O25: after a command `ERR` is `faultOf`, and where that is a fault the effect is fault entry. -/
theorem faultEntryWritesOnlyErr : Obligations.FaultEntryWritesOnlyErr := by
  unfold Obligations.FaultEntryWritesOnlyErr
  refine ⟨fun i s t ⟨_, he⟩ h => ?_, fun _ _ => iter_err⟩
  rw [exec_of_noFault he] at h
  cases h
  have hfault := effectOf_err he i
  obtain ⟨-, hreserved, hoverrun, -⟩ := ecauseOut_iff (effectOf i s)
  refine ⟨?_, ?_, fun hne => ⟨?_, (errOut_iff _).mpr hne⟩, hreserved.mpr, hoverrun.mpr⟩
  · rw [hfault, faultOf_eq_eReserved_iff]
  · rw [hfault, faultOf_eq_eOverrun_iff]
  · rw [hfault] at hne
    obtain ⟨c, hc⟩ := Option.ne_none_iff_exists'.mp hne
    rw [effectOf_eq_raiseFault hc]
    rfl

/-! ### The faulted engine (R133, R134) -/

/-- R20 excludes `BUSY = 1` in a faulted engine. -/
theorem quiescent_of_fault {s : State} (hs : s.Inv) (he : s.err ≠ none) : s.busy = false := by
  rw [← Bool.not_eq_true]
  intro hb
  exact he (hs hb).2

/-- A quiescent faulted engine takes the word on offer, where there is one, and does nothing with it. -/
theorem step_of_fault {s : State} (he : s.err ≠ none) (hb : s.busy = false) (hr : s.resetActive = false) :
    step s = .next s.passTime.acceptOffer := by
  cases ho : s.offers with
  | nil =>
    have hnone : s.passTime.acceptOffer = s.passTime :=
      State.ext_fields rfl rfl rfl rfl rfl (by simp [ho]) rfl rfl
    rw [step_of_noOffer hr hb ho, hnone]
  | cons c rest =>
    rw [step_of_offer hr hb ho]
    exact exec_of_fault (s := s.passTime.acceptOffer) he (decode c)

/-- Settles O26: the invariant gives `BUSY = 0`, and every command is discarded. -/
theorem faultedEngineIsInert : Obligations.FaultedEngineIsInert := by
  unfold Obligations.FaultedEngineIsInert
  intro s he hs
  have hb : s.busy = false := quiescent_of_fault hs he
  exact ⟨hb, (cmdReadyOut_iff s).mpr hb, exec_of_fault he, step_of_fault he hb⟩

/-- A command keeps the fault of a faulted engine, its cause included. -/
theorem exec_keeps_fault {i : Instr} {s t : State} {c : Cause} (he : s.err = some c) (h : exec i s = .next t) :
    t.err = some c := by
  rw [exec_of_fault (he ▸ Option.some_ne_none c)] at h
  cases h
  exact he

/-- Settles O27: of the moves only `Reset` writes `ERR` of a faulted engine. -/
theorem onlyResetClearsAFault : Obligations.OnlyResetClearsAFault := by
  unfold Obligations.OnlyResetClearsAFault
  intro s t c he h
  obtain ⟨hr, rfl⟩ | ⟨hr, -, hi⟩ | ⟨hr, -, w, rest, -, hx⟩ | ⟨hr, -, -, rfl⟩ := step_cases h
  · exact .inr ⟨hr, rfl, rfl⟩
  · exact .inl ⟨hr, (iter_err hi).trans he⟩
  · exact .inl ⟨hr, exec_keeps_fault (s := s.passTime.acceptOffer) he hx⟩
  · exact .inl ⟨hr, he⟩

/-! ### A host that issues only seeds and runs (R130) -/

/-- A command always answers a next state: obeyed or discarded. -/
theorem exec_answers (i : Instr) (s : State) : ∃ t, exec i s = .next t := by
  rw [exec_eq_obey]
  exact obey_answers s (effectOf i)

/-- With R20's invariant the step answers: a busy engine has a word left. -/
theorem step_answers {s : State} (hs : s.Inv) : ∃ t, step s = .next t := by
  cases hr : s.resetActive with
  | true => exact ⟨_, step_of_reset hr⟩
  | false =>
    cases hb : s.busy with
    | true =>
      rw [step_of_busy hr hb]
      exact iter_answers (s := s.passTime) (hs hb).1
    | false =>
      cases ho : s.offers with
      | nil => exact ⟨_, step_of_noOffer hr hb ho⟩
      | cons c rest =>
        rw [step_of_offer hr hb ho]
        exact exec_answers _ _

/-- What every step answers with and keeps, every run answers with and keeps. -/
theorem steps_of_step {P : State → Prop} (hstep : ∀ s, P s → ∃ t, step s = .next t ∧ P t) {s : State} (hs : P s)
    (k : Nat) : ∃ t, steps k s = .next t ∧ P t := by
  induction k generalizing s with
  | zero => exact ⟨s, rfl, hs⟩
  | succ k ih =>
    obtain ⟨u, hu, hPu⟩ := hstep s hs
    rw [steps_succ_of_next hu]
    exact ih hPu

/-- No command changes what the host offers. -/
theorem exec_offers {i : Instr} {s t : State} (h : exec i s = .next t) : t.offers = s.offers := by
  obtain ⟨-, rfl⟩ | ⟨-, ⟨-, rfl⟩ | ⟨n, -, rfl⟩ | ⟨-, q, rfl⟩ | ⟨-, -, rfl⟩ | ⟨-, -, rfl⟩ | ⟨-, -, rfl⟩⟩ :=
    exec_cases h <;> rfl

theorem iter_offers {s t : State} (h : iter s = .next t) : t.offers = s.offers := by
  obtain ⟨q, ⟨-, rfl⟩ | ⟨-, rfl⟩⟩ := iter_cases h <;> rfl

/-- A step takes words from the front of the host's words only. -/
theorem step_offers_suffix {s t : State} (h : step s = .next t) : t.offers <:+ s.offers := by
  obtain ⟨-, rfl⟩ | ⟨-, -, hi⟩ | ⟨-, -, c, rest, -, hx⟩ | ⟨-, -, -, rfl⟩ := step_cases h
  · exact List.suffix_rfl
  · rw [iter_offers hi]
    exact List.suffix_rfl
  · rw [exec_offers hx]
    exact List.tail_suffix s.offers
  · exact List.suffix_rfl

/-- A command that raises no fault leaves an engine without one. -/
theorem exec_keeps_noFault {i : Instr} {s t : State} (hi : faultOf i s = none) (he : s.err = none)
    (h : exec i s = .next t) : t.err = none := by
  rw [exec_of_noFault he] at h
  cases h
  rw [effectOf_err he, hi]

/-- Seeds and runs raise no fault, whatever the state (R131). -/
theorem faultOf_of_seed_or_run {i : Instr} (h : (∃ n, i = .seed n) ∨ i = .run) (s : State) : faultOf i s = none := by
  obtain ⟨n, rfl⟩ | rfl := h <;> rfl

/-- A step of an engine that is offered only seeds and runs raises no fault. -/
theorem step_keeps_noFault {s t : State} (ho : s.OnlySeedsAndRuns) (he : s.err = none) (h : step s = .next t) :
    t.err = none := by
  obtain ⟨-, rfl⟩ | ⟨-, -, hi⟩ | ⟨-, -, c, rest, hc, hx⟩ | ⟨-, -, -, rfl⟩ := step_cases h
  · rfl
  · exact (iter_err hi).trans he
  · have hword : c ∈ s.offers := hc ▸ List.mem_cons_self
    exact exec_keeps_noFault (s := s.passTime.acceptOffer) (faultOf_of_seed_or_run (ho c hword) _) he hx
  · exact he

/-- An engine without a fault, with R20's invariant, that is offered only seeds and runs. -/
structure ServesSeedsAndRuns (s : State) : Prop where
  inv : s.Inv
  noFault : s.err = none
  offers : s.OnlySeedsAndRuns

/-- Such an engine's step answers such an engine. -/
theorem ServesSeedsAndRuns.step {s : State} (h : ServesSeedsAndRuns s) :
    ∃ t, step s = .next t ∧ ServesSeedsAndRuns t := by
  obtain ⟨hinv, he, ho⟩ := h
  obtain ⟨t, ht⟩ := step_answers hinv
  exact ⟨t, ht, step_keeps_inv hinv ht, step_keeps_noFault ho he ht,
    fun c hc => ho c ((step_offers_suffix ht).subset hc)⟩

/-- Settles O28: every step answers and keeps `ServesSeedsAndRuns`. -/
theorem seedsAndRunsNeverFault : Obligations.SeedsAndRunsNeverFault := by
  unfold Obligations.SeedsAndRunsNeverFault
  intro s hinv he ho k
  obtain ⟨t, ht, -, hte, -⟩ := steps_of_step (fun _ => ServesSeedsAndRuns.step) ⟨hinv, he, ho⟩ k
  exact ⟨t, ht, hte⟩

end Sys2Proof.Proofs

namespace Sys2Proof.Proofs

open Sys2Proof.Machine Sys2Proof.Laws

/-! ### The `Reset` step (R23, R150) -/

/-- The status outputs of R23 follow from R18 and the three registers alone, whatever `X` and `OUT` hold. -/
theorem statusOutputs_of_resetValues {t : State} (hc : t.cnt.val = 125) (hb : t.busy = false) (he : t.err = none) :
    t.busyOut = false ∧ t.doneOut = true ∧ t.errOut = false ∧ t.ecauseOut = 0#2 ∧ t.cmdReadyOut = true := by
  have herr : t.errOut = false := by
    rw [← Bool.not_eq_true, errOut_iff]
    exact not_not_intro he
  exact ⟨hb, (doneOut_iff t).mpr hc, herr, (ecauseOut_iff t).1.mpr he, (cmdReadyOut_iff t).mpr hb⟩

/-- A step that takes `ERR` from a fault to no fault is a `Reset` step (R134, R150). -/
theorem resetActive_of_step_clears_err {s t : State} (h : step s = .next t) (hs : s.err ≠ none) (ht : t.err = none) :
    s.resetActive = true := by
  obtain ⟨c, hc⟩ := Option.ne_none_iff_exists'.mp hs
  obtain ⟨-, hkept⟩ | ⟨hr, -, -⟩ := onlyResetClearsAFault s t c hc h
  · rw [ht] at hkept
    cases hkept
  · exact hr

/-- Settles O31: the step is `resetEngine`, whose registers give the outputs; no other step clears `ERR`, by O27. -/
theorem resetStepSetsTheSpecsValues : Obligations.ResetStepSetsTheSpecsValues := by
  unfold Obligations.ResetStepSetsTheSpecsValues
  exact ⟨fun s hr => ⟨resetEngine s.passTime, step_of_reset hr, rfl, rfl, rfl, rfl, rfl,
      statusOutputs_of_resetValues rfl rfl rfl⟩,
    fun _ _ => resetActive_of_step_clears_err⟩

end Sys2Proof.Proofs

namespace Sys2Proof.Proofs

open Sys2Proof.Machine Sys2Proof.Laws

/-! ### Decode and encode agree (R50, R51, R52) -/

/-- Encoding what a word decodes to: `arg` is kept for `SEED` and is 0 elsewhere (R52). -/
theorem encode_decode (c : CmdWord) : encode (decode c) = canonicalWord c := by
  obtain h | h | h | h := op_cases (opField c)
  · rw [decode_of_op0 h, canonicalWord, h]; rfl
  · rw [decode_of_op1 h, canonicalWord, if_pos h, ← packFields_opField_argField c, h, argField_packFields]; rfl
  · rw [decode_of_op2 h, canonicalWord, h]; rfl
  · rw [decode_of_op3 h, canonicalWord, h]; rfl

/-- Settles O2: from the two fields of the command's word, and by `op` for the other direction. -/
theorem decodeEncodeRoundTrip : Obligations.DecodeEncodeRoundTrip := by
  unfold Obligations.DecodeEncodeRoundTrip
  exact ⟨fun i _ => ⟨decode_encode i, encode_toNat i⟩, encode_decode⟩

end Sys2Proof.Proofs

namespace Sys2Proof.Proofs

open Sys2Proof.Machine Sys2Proof.Laws

/-! ### What a step does to the data `X`, `CNT` and `OUT`

The ranges of R12 and R31, the ledger of R13 and the growth of `OUT` speak of these three alone, and a step does one of
four things to them. -/

/-- `X`, `CNT` and `OUT` are as they were: a discarded command, `RSVD0`, `RUN`, `STEP` past the quota, no command. -/
structure KeepsData (s t : State) : Prop where
  x : t.x = s.x
  cnt : t.cnt = s.cnt
  out : t.out = s.out

/-- A seed is loaded (R91). -/
structure LoadsSeed (s t : State) : Prop where
  cnt : t.cnt.val = 0
  out : t.out = s.out

/-- `Reset`: the quota is used up and no word is emitted (R23). -/
structure ResetsData (s t : State) : Prop where
  active : s.resetActive = true
  cnt : t.cnt.val = 125
  out : t.out = s.out

/-- One iteration: the new `X` is emitted and counted (R90). -/
structure EmitsWord (s t : State) : Prop where
  quota : s.cnt.val < 125
  x : t.x = modmul s.x
  cnt : t.cnt.val = s.cnt.val + 1
  out : t.out = s.out ++ [t.x]

theorem KeepsData.hasQuota_iff {s t : State} (h : KeepsData s t) : t.hasQuota ↔ s.hasQuota := by
  rw [State.hasQuota, h.cnt]

theorem emitsWord_iterate {s : State} (q : s.hasQuota) : EmitsWord s (iterate s q) :=
  ⟨q, rfl, rfl, rfl⟩

/-- `Iter` is an iteration, whether or not it clears `BUSY`. -/
theorem emitsWord_of_iter {s t : State} (h : iter s = .next t) : EmitsWord s t := by
  obtain ⟨q, ⟨-, rfl⟩ | ⟨-, rfl⟩⟩ := iter_cases h
  · exact ⟨q, rfl, rfl, rfl⟩
  · exact emitsWord_iterate q

/-- Everything a command can do to the data. -/
theorem exec_data_cases {i : Instr} {s t : State} (h : exec i s = .next t) :
    KeepsData s t ∨ LoadsSeed s t ∨ EmitsWord s t := by
  obtain ⟨-, rfl⟩ | ⟨-, ⟨-, rfl⟩ | ⟨n, -, rfl⟩ | ⟨-, q, rfl⟩ | ⟨-, -, rfl⟩ | ⟨-, -, rfl⟩ | ⟨-, -, rfl⟩⟩ :=
    exec_cases h
  · exact .inl ⟨rfl, rfl, rfl⟩
  · exact .inl ⟨rfl, rfl, rfl⟩
  · exact .inr (.inl ⟨rfl, rfl⟩)
  · exact .inr (.inr (emitsWord_iterate q))
  · exact .inl ⟨rfl, rfl, rfl⟩
  · exact .inl ⟨rfl, rfl, rfl⟩
  · exact .inl ⟨rfl, rfl, rfl⟩

/-- Everything a step can do to the data. -/
theorem step_data_cases {s t : State} (h : step s = .next t) :
    KeepsData s t ∨ LoadsSeed s t ∨ ResetsData s t ∨ EmitsWord s t := by
  obtain ⟨hr, rfl⟩ | ⟨-, -, hi⟩ | ⟨-, -, c, rest, -, he⟩ | ⟨-, -, -, rfl⟩ := step_cases h
  · exact .inr (.inr (.inl ⟨hr, rfl, rfl⟩))
  · obtain ⟨q, hx, hc, ho⟩ := emitsWord_of_iter hi
    exact .inr (.inr (.inr ⟨q, hx, hc, ho⟩))
  · obtain ⟨hx, hc, ho⟩ | ⟨hc, ho⟩ | ⟨q, hx, hc, ho⟩ := exec_data_cases he
    · exact .inl ⟨hx, hc, ho⟩
    · exact .inr (.inl ⟨hc, ho⟩)
    · exact .inr (.inr (.inr ⟨q, hx, hc, ho⟩))
  · exact .inl ⟨rfl, rfl, rfl⟩

/-! ### The ranges of `X` and of the emitted words (R12, R31) -/

/-- After an iteration `X` is reduced. -/
theorem EmitsWord.x_lt {s t : State} (h : EmitsWord s t) : t.x.toNat < 4294967291 := by
  rw [h.x]
  exact modmul_toNat_lt s.x

/-- `X` is in range when words of the seed were emitted and more remain; a seed or a spent quota says nothing of it. -/
theorem step_keeps_xInRange {s t : State} (hs : s.XInRange) (h : step s = .next t) : t.XInRange := by
  intro hpos hq
  obtain hkeep | ⟨hc, -⟩ | ⟨-, hc, -⟩ | he := step_data_cases h
  · rw [hkeep.x]
    exact hs (hkeep.cnt ▸ hpos) (hkeep.hasQuota_iff.mp hq)
  · omega
  · exact absurd hq (t.not_hasQuota_iff.mpr hc)
  · exact he.x_lt

theorem step_keeps_outInRange {s t : State} (hs : s.OutInRange) (h : step s = .next t) : t.OutInRange := by
  have hsame (ho : t.out = s.out) : t.OutInRange := fun v hv => hs v (ho ▸ hv)
  obtain ⟨-, -, ho⟩ | ⟨-, ho⟩ | ⟨-, -, ho⟩ | he := step_data_cases h
  · exact hsame ho
  · exact hsame ho
  · exact hsame ho
  · intro v hv
    rw [he.out, List.mem_append, List.mem_singleton] at hv
    obtain hv | rfl := hv
    · exact hs v hv
    · exact he.x_lt

/-- A step that leaves `X` unreduced left it alone, was a `Reset`, or loaded a seed (R12). -/
theorem origin_of_unreduced_x {s t : State} (h : step s = .next t) (hx : 4294967291 ≤ t.x.toNat) :
    t.x = s.x ∨ s.resetActive = true ∨ t.cnt.val = 0 := by
  obtain ⟨hsame, -, -⟩ | ⟨hc, -⟩ | ⟨hr, -⟩ | he := step_data_cases h
  · exact .inl hsame
  · exact .inr (.inr hc)
  · exact .inr (.inl hr)
  · exact absurd he.x_lt (Nat.not_lt.mpr hx)

/-- Settles O35: only an iteration emits, and what it leaves in `X` and emits is a remainder. -/
theorem everyStepKeepsTheRanges : Obligations.EveryStepKeepsTheRanges := by
  unfold Obligations.EveryStepKeepsTheRanges
  exact fun s t h =>
    ⟨fun hs => step_keeps_xInRange hs h, fun hs => step_keeps_outInRange hs h, origin_of_unreduced_x h⟩

/-! ### The ledger (R13, R32) -/

/-- `OUT` ends in the `CNT` words of a seed, and `X` is the last of them: the ledger's entry for the current seed. -/
def HasEntry (s : State) : Prop :=
  ∃ n before, s.out = before ++ wordsFrom s.cnt.val n ∧ s.x = iterated s.cnt.val n

/-- A seed opens an entry without words. -/
theorem hasEntry_of_cnt_eq_zero {s : State} (hc : s.cnt.val = 0) : HasEntry s := by
  rw [HasEntry, hc]
  exact ⟨s.x, s.out, (List.append_nil _).symm, rfl⟩

theorem KeepsData.hasEntry {s t : State} (h : KeepsData s t) (hs : HasEntry s) : HasEntry t := by
  rwa [HasEntry, h.x, h.cnt, h.out]

/-- An iteration writes the next word of the same seed into the entry. -/
theorem EmitsWord.hasEntry {s t : State} (h : EmitsWord s t) (hs : HasEntry s) : HasEntry t := by
  obtain ⟨n, before, ho, hx⟩ := hs
  have hnew : t.x = iterated (s.cnt.val + 1) n := by rw [h.x, hx, iterated_succ]
  refine ⟨n, before, ?_, ?_⟩
  · rw [h.out, h.cnt, wordsFrom_succ, ho, hnew, List.append_assoc]
  · rw [h.cnt, hnew]

/-- While words of a seed remained, its entry stands after every step but a `Reset`, the completing step included. -/
theorem step_hasEntry {s t : State} (hs : s.Ledger) (q : s.hasQuota) (hr : s.resetActive = false)
    (h : step s = .next t) : HasEntry t := by
  have hentry : HasEntry s := hs q
  obtain hkeep | ⟨hc, -⟩ | ⟨hreset, -⟩ | he := step_data_cases h
  · exact hkeep.hasEntry hentry
  · exact hasEntry_of_cnt_eq_zero hc
  · simp [hr] at hreset
  · exact he.hasEntry hentry

theorem step_keeps_ledger {s t : State} (hs : s.Ledger) (h : step s = .next t) : t.Ledger := by
  intro q
  obtain hkeep | ⟨hc, -⟩ | ⟨-, hc, -⟩ | he := step_data_cases h
  · exact hkeep.hasEntry (hs (hkeep.hasQuota_iff.mp q))
  · exact hasEntry_of_cnt_eq_zero hc
  · exact absurd q (t.not_hasQuota_iff.mpr hc)
  · exact he.hasEntry (hs he.quota)

/-- Settles O36: each kind of step keeps or opens an entry, and at `CNT = 125` the entry is the whole block. -/
theorem everyStepKeepsTheLedger : Obligations.EveryStepKeepsTheLedger := by
  unfold Obligations.EveryStepKeepsTheLedger
  refine fun s t hs h => ⟨step_keeps_ledger hs h, fun q hdone hr => ?_⟩
  have hentry := step_hasEntry hs q hr h
  rwa [HasEntry, t.not_hasQuota_iff.mp hdone] at hentry

/-! ### `OUT` only grows (R17, R31) -/

/-- Settles O38: an iteration appends the new `X`, and nothing else writes `OUT`. -/
theorem outputOnlyGrowsByTheNewState : Obligations.OutputOnlyGrowsByTheNewState := by
  unfold Obligations.OutputOnlyGrowsByTheNewState
  intro s t h
  obtain ⟨-, -, ho⟩ | ⟨-, ho⟩ | ⟨-, -, ho⟩ | ⟨q, hx, hc, ho⟩ := step_data_cases h
  · exact .inl ho
  · exact .inl ho
  · exact .inl ho
  · exact .inr ⟨ho, hx, q, hc⟩

end Sys2Proof.Proofs

namespace Sys2Proof.Proofs

open Sys2Proof.Machine Sys2Proof.Laws

/-! ### Equal values of `f` (R76, R78, R79) -/

/-- `A` has an inverse modulo `M`. -/
theorem coprime_modulus_multiplier : Nat.Coprime 4294967291 1815976680 := by
  norm_num

/-- Equality of words by their numbers modulo `M`, for words below `M`. -/
theorem eq_of_toNat_modEq {x y : Word} (hx : x.toNat < 4294967291) (hy : y.toNat < 4294967291)
    (h : x.toNat ≡ y.toNat [MOD 4294967291]) : x = y :=
  BitVec.eq_of_toNat_eq (h.eq_of_lt_of_lt hx hy)

/-- `f` tells two inputs apart exactly when they differ modulo `M`. -/
theorem modmul_eq_iff (x y : Word) : modmul x = modmul y ↔ x.toNat ≡ y.toNat [MOD 4294967291] := by
  rw [← BitVec.toNat_inj, modmul_toNat_eq_product_mod, modmul_toNat_eq_product_mod, product_eq, product_eq]
  constructor
  · exact Nat.ModEq.cancel_right_of_coprime coprime_modulus_multiplier
  · exact fun h => h.mul_right 1815976680

/-- `f` of 0 is 0, so `f` gives 0 for the multiples of `M` and nothing else. -/
theorem modmul_eq_zero_iff (x : Word) : modmul x = 0#32 ↔ x.toNat % 4294967291 = 0 :=
  modmul_eq_iff x 0#32

/-- A fixed point is a value of `f`, hence below `M`, and `x * (A - 1)` is a multiple of `M`, hence `x` is. -/
theorem modmul_eq_self_iff (x : Word) : modmul x = x ↔ x = 0#32 := by
  constructor
  · intro h
    have hlt : x.toNat < 4294967291 := h ▸ modmul_toNat_lt x
    have hself : x.toNat * 1815976679 + x.toNat ≡ 0 + x.toNat [MOD 4294967291] := by
      rw [← Nat.mul_succ, Nat.zero_add, Nat.ModEq, Nat.mod_eq_of_lt hlt, ← product_eq,
        ← modmul_toNat_eq_product_mod, h]
    have hdvd : 4294967291 ∣ x.toNat * 1815976679 :=
      (Nat.modEq_zero_iff_dvd).mp (Nat.ModEq.add_right_cancel' x.toNat hself)
    have hx : 4294967291 ∣ x.toNat := Nat.Coprime.dvd_of_dvd_mul_right (by norm_num) hdvd
    exact BitVec.eq_of_toNat_eq (Nat.eq_zero_of_dvd_of_lt hx hlt)
  · rintro rfl
    decide

/-- The words of a seed depend on its residue only (R78). -/
theorem wordsFrom_congr {x y : Word} (h : modmul x = modmul y) (k : Nat) : wordsFrom k x = wordsFrom k y := by
  cases k with
  | zero => rfl
  | succ k => rw [wordsFrom, wordsFrom, h]

/-- Settles O12: `x` and `x − M` agree modulo `M`. -/
theorem seedsAboveTheModulusAlias : Obligations.SeedsAboveTheModulusAlias := by
  unfold Obligations.SeedsAboveTheModulusAlias
  intro x hx
  have hsub : (x - 4294967291#32).toNat = x.toNat - 4294967291 := BitVec.toNat_sub_of_le hx
  have hf : modmul x = modmul (x - 4294967291#32) := by
    rw [modmul_eq_iff, hsub]
    exact Nat.mod_eq_sub_mod hx
  exact ⟨hf, wordsFrom_congr hf⟩

/-- A seed that is a multiple of `M` gives zero words only (R76). -/
theorem wordsFrom_of_multiple {n : Word} (h : n.toNat % 4294967291 = 0) (k : Nat) :
    wordsFrom k n = List.replicate k 0#32 := by
  induction k generalizing n with
  | zero => rfl
  | succ k ih => rw [wordsFrom, (modmul_eq_zero_iff n).mpr h, ih rfl, List.replicate_succ]

/-- `f` keeps an input that is no multiple of `M` so. -/
theorem modmul_mod_ne_zero {n : Word} (h : n.toNat % 4294967291 ≠ 0) : (modmul n).toNat % 4294967291 ≠ 0 := by
  rw [Nat.mod_eq_of_lt (modmul_toNat_lt n)]
  exact fun h0 => h ((modmul_eq_zero_iff n).mp (BitVec.eq_of_toNat_eq h0))

/-- A seed that is no multiple of `M` gives no zero word (R76). -/
theorem zero_not_mem_wordsFrom {n : Word} (h : n.toNat % 4294967291 ≠ 0) (k : Nat) : 0#32 ∉ wordsFrom k n := by
  induction k generalizing n with
  | zero => exact List.not_mem_nil
  | succ k ih =>
    rw [wordsFrom, List.mem_cons, not_or]
    exact ⟨fun h0 => h ((modmul_eq_zero_iff n).mp h0.symm), ih (modmul_mod_ne_zero h)⟩

/-- Settles O13: from when `f` has equal values, when it is 0, and when it is its input. -/
theorem modmulPermutesBelowTheModulus : Obligations.ModmulPermutesBelowTheModulus := by
  unfold Obligations.ModmulPermutesBelowTheModulus
  exact ⟨fun x y hx hy h => eq_of_toNat_modEq hx hy ((modmul_eq_iff x y).mp h), modmul_eq_self_iff,
    modmul_eq_zero_iff, fun _ k h => wordsFrom_of_multiple h k, fun _ k h => zero_not_mem_wordsFrom h k⟩

/-! ### The period of the sequence (R79)

`A` is a primitive root modulo `M`: its order is `M − 1`, which by Lucas's test shows also that `M` is prime. -/

theorem prime_dvd_modulus_sub_one {q : Nat} (hq : q.Prime) (h : q ∣ 4294967290) :
    q = 2 ∨ q = 5 ∨ q = 19 ∨ q = 22605091 := by
  have hfactors : 4294967290 = 2 * 5 * 19 * 22605091 := by norm_num
  rw [hfactors, hq.dvd_mul, hq.dvd_mul, hq.dvd_mul, Nat.prime_dvd_prime_iff_eq hq (by norm_num),
    Nat.prime_dvd_prime_iff_eq hq (by norm_num), Nat.prime_dvd_prime_iff_eq hq (by norm_num),
    Nat.prime_dvd_prime_iff_eq hq (by norm_num), or_assoc, or_assoc] at h
  exact h

theorem multiplier_pow_modulus_sub_one : (1815976680 : ZMod 4294967291) ^ 4294967290 = 1 := by
  reduce_mod_char

/-- No proper divisor of `M − 1` is the order: at each prime factor the power is another residue. -/
theorem multiplier_pow_div_prime_ne_one {q : Nat} (hq : q.Prime) (h : q ∣ 4294967290) :
    (1815976680 : ZMod 4294967291) ^ (4294967290 / q) ≠ 1 := by
  obtain rfl | rfl | rfl | rfl := prime_dvd_modulus_sub_one hq h
  · show (1815976680 : ZMod 4294967291) ^ 2147483645 ≠ 1
    reduce_mod_char
    decide
  · show (1815976680 : ZMod 4294967291) ^ 858993458 ≠ 1
    reduce_mod_char
    decide
  · show (1815976680 : ZMod 4294967291) ^ 226050910 ≠ 1
    reduce_mod_char
    decide
  · show (1815976680 : ZMod 4294967291) ^ 190 ≠ 1
    reduce_mod_char
    decide

theorem orderOf_multiplier : orderOf (1815976680 : ZMod 4294967291) = 4294967290 :=
  orderOf_eq_of_pow_and_pow_div_prime (by norm_num) multiplier_pow_modulus_sub_one
    fun _ => multiplier_pow_div_prime_ne_one

theorem modulus_prime : Nat.Prime 4294967291 :=
  lucas_primality _ 1815976680 multiplier_pow_modulus_sub_one fun _ => multiplier_pow_div_prime_ne_one

/-- Powers of `A` agree modulo `M` exactly when their exponents agree modulo `M − 1`. -/
theorem multiplier_pow_modEq_iff (j k : Nat) :
    1815976680 ^ j ≡ 1815976680 ^ k [MOD 4294967291] ↔ j ≡ k [MOD 4294967290] := by
  have hfin : IsOfFinOrder (1815976680 : ZMod 4294967291) :=
    orderOf_pos_iff.mp (orderOf_multiplier ▸ by norm_num)
  rw [← ZMod.natCast_eq_natCast_iff, Nat.cast_pow, Nat.cast_pow, Nat.cast_ofNat, hfin.pow_eq_pow_iff_modEq,
    orderOf_multiplier]

/-- A seed that is no multiple of the prime `M` has an inverse modulo `M`. -/
theorem coprime_modulus_of_mod_ne_zero {n : Nat} (h : n % 4294967291 ≠ 0) : Nat.Coprime 4294967291 n :=
  modulus_prime.coprime_iff_not_dvd.mpr fun hdvd => h (Nat.mod_eq_zero_of_dvd hdvd)

/-- The period of the sequence: `n` and one factor `A` cancel, and powers of `A` are left. -/
theorem iterated_succ_eq_iff {n : Word} (h : n.toNat % 4294967291 ≠ 0) (j k : Nat) :
    iterated (j + 1) n = iterated (k + 1) n ↔ j ≡ k [MOD 4294967290] := by
  have hcancel : n.toNat * 1815976680 ^ (j + 1) ≡ n.toNat * 1815976680 ^ (k + 1) [MOD 4294967291] ↔
      1815976680 ^ (j + 1) ≡ 1815976680 ^ (k + 1) [MOD 4294967291] :=
    ⟨Nat.ModEq.cancel_left_of_coprime (coprime_modulus_of_mod_ne_zero h), Nat.ModEq.mul_left _⟩
  rw [← BitVec.toNat_inj, iterated_succ_toNat, iterated_succ_toNat]
  refine hcancel.trans ((multiplier_pow_modEq_iff _ _).trans ?_)
  exact ⟨Nat.ModEq.add_right_cancel' 1, Nat.ModEq.add_right 1⟩

/-- The words of a seed, by the number of iterations that give them. -/
theorem wordsFrom_eq_map_iterated (k : Nat) (n : Word) :
    wordsFrom k n = (List.range k).map fun j => iterated (j + 1) n := by
  simp only [wordsFrom_eq_closedForms, iterated_succ_eq_closedForm]

/-- Fewer words than the period are pairwise different. -/
theorem wordsFrom_nodup {n : Word} (h : n.toNat % 4294967291 ≠ 0) {k : Nat} (hk : k ≤ 4294967290) :
    (wordsFrom k n).Nodup := by
  rw [wordsFrom_eq_map_iterated]
  refine List.Nodup.map_on (fun i hi j hj heq => ?_) List.nodup_range
  rw [List.mem_range] at hi hj
  exact ((iterated_succ_eq_iff h i j).mp heq).eq_of_lt_of_lt (by omega) (by omega)

/-- `f` does not tell a seed from its residue. -/
theorem modmul_residue (n : Word) : modmul (BitVec.ofNat 32 (n.toNat % 4294967291)) = modmul n := by
  have hres : (BitVec.ofNat 32 (n.toNat % 4294967291)).toNat = n.toNat % 4294967291 := toNat_ofNat_mod n.toNat
  rw [modmul_eq_iff, hres]
  exact Nat.mod_modEq n.toNat 4294967291

/-- The seed's residue is no word short of the period: the word after it would be the first word again. -/
theorem residue_not_mem_wordsFrom {n : Word} (h : n.toNat % 4294967291 ≠ 0) {k : Nat} (hk : k < 4294967290) :
    BitVec.ofNat 32 (n.toNat % 4294967291) ∉ wordsFrom k n := by
  rw [wordsFrom_eq_map_iterated, List.mem_map]
  rintro ⟨j, hj, heq⟩
  rw [List.mem_range] at hj
  have hagain : iterated (j + 1 + 1) n = iterated (0 + 1) n := by
    rw [iterated_succ, heq, modmul_residue]
    rfl
  have hzero : j + 1 = 0 := ((iterated_succ_eq_iff h _ _).mp hagain).eq_of_lt_of_lt (by omega) (by decide)
  omega

/-- Settles O14: `A` is a primitive root, and a block is shorter than the period. -/
theorem sequenceHasPeriodModulusMinusOne : Obligations.SequenceHasPeriodModulusMinusOne := by
  unfold Obligations.SequenceHasPeriodModulusMinusOne
  exact fun n h => ⟨iterated_succ_eq_iff h, wordsFrom_nodup h (by decide), residue_not_mem_wordsFrom h (by decide)⟩

end Sys2Proof.Proofs

namespace Sys2Proof.Proofs

open Sys2Proof.Machine Sys2Proof.Laws

/-! ### The commands of a ready engine (R90, R92, R110) -/

/-- Settles O17: the effect of `STEP` is the iteration of R90. -/
theorem stepEmitsOneWord : Obligations.StepEmitsOneWord := by
  unfold Obligations.StepEmitsOneWord
  rintro s q ⟨-, he⟩
  have hnext : exec .step s = .next (iterate s q) := by rw [exec_of_noFault he, effectOf_step_of_quota q]
  exact ⟨iterate s q, hnext, rfl, modmul_toNat s.x, doneOut_iff _⟩

/-- Settles O18: past the quota the effect of `STEP` is fault entry. -/
theorem stepAtQuotaOverruns : Obligations.StepAtQuotaOverruns := by
  unfold Obligations.StepAtQuotaOverruns
  rintro s ⟨-, he⟩ hc
  have hnext : exec .step s = .next (raiseFault s .eOverrun) := by
    rw [exec_of_noFault he, effectOf_step_of_spent (s.not_hasQuota_iff.mpr hc)]
  exact ⟨raiseFault s .eOverrun, hnext, rfl, errOut_raiseFault s .eOverrun, ecauseOut_raiseFault s .eOverrun⟩

/-- Settles O20: the effect of `RUN` on either side of the quota. -/
theorem runStartsTheUnroller : Obligations.RunStartsTheUnroller := by
  unfold Obligations.RunStartsTheUnroller
  rintro s ⟨-, he⟩
  constructor
  · intro q
    rw [exec_of_noFault he, effectOf_run_of_quota q]
    rfl
  · intro hc
    rw [exec_of_noFault he, effectOf_run_of_spent (s.not_hasQuota_iff.mpr hc)]

/-! ### The step without a `Reset` (R58, R117, R142) -/

/-- Settles O23: the step of an engine with a word on offer. -/
theorem stepRunsTheDecodedCommand : Obligations.StepRunsTheDecodedCommand := by
  unfold Obligations.StepRunsTheDecodedCommand
  intro s c rest ho hb hr
  rw [step_of_offer hr hb ho, State.acceptOffer, State.passTime_offers, ho]
  rfl

/-- Settles O24: the step of an engine without one. -/
theorem quiescentEngineStays : Obligations.QuiescentEngineStays := by
  unfold Obligations.QuiescentEngineStays
  exact fun s ho hb hr => step_of_noOffer hr hb ho

/-! ### The frame of the commands (R91 to R93, R110) -/

/-- Settles O21: each command's next state, discarded or obeyed, against the fields the command may write. -/
theorem commandFrame : Obligations.CommandFrame := by
  unfold Obligations.CommandFrame
  intro i s t h
  obtain ⟨-, rfl⟩ | ⟨-, ⟨rfl, rfl⟩ | ⟨n, rfl, rfl⟩ | ⟨rfl, q, rfl⟩ | ⟨rfl, -, rfl⟩ | ⟨rfl, -, rfl⟩ | ⟨rfl, -, rfl⟩⟩ :=
    exec_cases h
  all_goals simp

/-! ### A `Reset` beside another step (R136) -/

/-- `s` and `t` agree in what `Reset` neither writes nor emits: they differ at most in the registers and in `OUT`. -/
structure SameInputs (s t : State) : Prop where
  offers : t.offers = s.offers
  resetLine : t.resetLine = s.resetLine
  resetDraws : t.resetDraws = s.resetDraws

/-- `Reset` forgets every register that it writes. -/
theorem SameInputs.resetEngine {s t : State} (h : SameInputs s t) :
    (resetEngine t).SameButX { resetEngine s with out := t.out } :=
  State.ext_fields rfl rfl rfl rfl rfl h.offers h.resetLine (congrArg (· + 1) h.resetDraws)

theorem iter_resetDraws {s t : State} (h : iter s = .next t) : t.resetDraws = s.resetDraws := by
  obtain ⟨q, ⟨-, rfl⟩ | ⟨-, rfl⟩⟩ := iter_cases h <;> rfl

theorem exec_resetDraws {i : Instr} {s t : State} (h : exec i s = .next t) : t.resetDraws = s.resetDraws := by
  obtain ⟨-, rfl⟩ | ⟨-, ⟨-, rfl⟩ | ⟨n, -, rfl⟩ | ⟨-, q, rfl⟩ | ⟨-, -, rfl⟩ | ⟨-, -, rfl⟩ | ⟨-, -, rfl⟩⟩ :=
    exec_cases h <;> rfl

/-- A command leaves `OUT` or emits `f(X)`. -/
theorem exec_out {i : Instr} {s t : State} (h : exec i s = .next t) :
    t.out = s.out ∨ t.out = s.out ++ [modmul s.x] := by
  obtain ⟨-, -, ho⟩ | ⟨-, ho⟩ | ⟨-, hx, -, ho⟩ := exec_data_cases h
  · exact .inl ho
  · exact .inl ho
  · exact .inr (hx ▸ ho)

/-- Settles O29: the other step keeps what `Reset` keeps, but for the word it emits. -/
theorem resetAbsorbsACoincidentStep : Obligations.ResetAbsorbsACoincidentStep := by
  unfold Obligations.ResetAbsorbsACoincidentStep
  constructor
  · intro s t h
    obtain ⟨-, hx, -, ho⟩ := emitsWord_of_iter h
    have hsame : SameInputs s t := ⟨iter_offers h, iter_resetLine h, iter_resetDraws h⟩
    exact ⟨hsame.resetEngine, hx ▸ ho⟩
  · intro i s t _ h
    have hsame : SameInputs s t := ⟨exec_offers h, exec_resetLine h, exec_resetDraws h⟩
    exact ⟨hsame.resetEngine, exec_out h⟩

/-! ### Reset -/

/-- Settles O30: the status outputs follow from the registers. -/
theorem resetStateHoldsTheSpecsValues : Obligations.ResetStateHoldsTheSpecsValues := by
  unfold Obligations.ResetStateHoldsTheSpecsValues
  exact ⟨rfl, rfl, rfl, rfl, statusOutputs_of_resetValues (t := State.reset) rfl rfl rfl⟩

/-- Settles O33: at reset `BUSY` is 0, the quota is used up, and nothing has been emitted. -/
theorem invariantsHoldAtReset : Obligations.InvariantsHoldAtReset := by
  unfold Obligations.InvariantsHoldAtReset
  have hspent : ¬State.reset.hasQuota := State.reset.not_hasQuota_iff.mpr rfl
  exact ⟨inv_of_quiescent rfl, fun _ q => absurd q hspent, fun _ hv => absurd hv List.not_mem_nil,
    fun q => absurd q hspent⟩

/-- Settles O37: the step answers with the invariant, and keeps it. -/
theorem theMachineNeverStops : Obligations.TheMachineNeverStops := by
  unfold Obligations.TheMachineNeverStops
  refine fun s k hs => steps_of_step (fun u hu => ?_) hs k
  obtain ⟨t, ht⟩ := step_answers hu
  exact ⟨t, ht, step_keeps_inv hu ht⟩

/-! ### The value of `X` after reset (R23, R155) -/

/-- At `CNT = W` two engines that differ in `X` alone are abreast: no word is left to show it. -/
theorem abreast_of_sameButX {s t : State} (h : s.SameButX t) (hc : s.cnt.val = 125) :
    Abreast False s.out s.out s t := by
  have hspent : ¬(False ∨ s.hasQuota) := by simp [s.not_hasQuota_iff.mpr hc]
  rw [State.SameButX] at h
  generalize s.x = x at h
  subst h
  exact {
    cnt := rfl, busy := rfl, err := rfl, offers := rfl, resetLine := rfl
    x := fun hx => absurd hx hspent
    out := ⟨[], (List.append_nil _).symm, (List.append_nil _).symm⟩ }

/-- Settles O32: the engines stay abreast, so they emit the same words and agree in the registers the outputs show. -/
theorem unspecifiedXIsNeverObserved : Obligations.UnspecifiedXIsNeverObserved := by
  unfold Obligations.UnspecifiedXIsNeverObserved
  intro s t k h hc hs
  obtain ⟨s', t', hs', ht', hab⟩ := (abreast_of_sameButX h hc).steps (k := k) hs False.elim
  obtain ⟨words, hsout, htout⟩ := hab.out
  refine ⟨s', t', hs', ht', hsout.trans htout.symm, hab.busy.symm, ?_, ?_, ?_, ?_⟩
  · rw [State.doneOut, State.doneOut, hab.cnt]
  · rw [State.errOut, State.errOut, hab.err]
  · rw [State.ecauseOut, State.ecauseOut, hab.err]
  · rw [State.cmdReadyOut, State.cmdReadyOut, hab.busy]

end Sys2Proof.Proofs

namespace Sys2Proof.Machine

open Sys2Proof.Proofs Sys2Proof.Laws

/-! ### Data and control (R117)

`SameControl` speaks of no data, so each operation keeps it without looking at `X` or at the words of `OUT`. -/

variable {s t : State}

theorem State.SameControl.hasQuota_iff (h : s.SameControl t) : s.hasQuota ↔ t.hasQuota := by
  rw [State.hasQuota, h.cnt]

theorem State.SameControl.resetActive (h : s.SameControl t) : s.resetActive = t.resetActive :=
  resetActive_congr h.resetLine

theorem State.SameControl.setBusy (h : s.SameControl t) (b : Bool) : (s.setBusy b).SameControl (t.setBusy b) :=
  { h with busy := rfl }

theorem State.SameControl.raiseFault (h : s.SameControl t) (c : Cause) :
    (raiseFault s c).SameControl (raiseFault t c) :=
  { h with err := rfl }

theorem State.SameControl.passTime (h : s.SameControl t) : s.passTime.SameControl t.passTime :=
  { h with resetLine := congrArg List.tail h.resetLine }

theorem State.SameControl.acceptOffer (h : s.SameControl t) : s.acceptOffer.SameControl t.acceptOffer :=
  { h with offers := congrArg List.tail h.offers }

theorem State.SameControl.resetEngine (h : s.SameControl t) : (resetEngine s).SameControl (resetEngine t) :=
  { h with cnt := rfl, busy := rfl, err := rfl, resetDraws := congrArg (· + 1) h.resetDraws }

/-- An iteration emits one word in both, whatever the words are. -/
theorem State.SameControl.iterate (h : s.SameControl t) (q : s.hasQuota) (q' : t.hasQuota) :
    (iterate s q).SameControl (iterate t q') :=
  { h with cnt := by simp [h.cnt], emitted := by simp [h.emitted] }

/-- A command tests `CNT` alone (R117). -/
theorem State.SameControl.effectOf (h : s.SameControl t) (i : Instr) : (effectOf i s).SameControl (effectOf i t) := by
  cases i with
  | rsvd0 => exact h.raiseFault .eReserved
  | seed n => exact { h with cnt := rfl }
  | step =>
    by_cases q : s.hasQuota
    · rw [effectOf_step_of_quota q, effectOf_step_of_quota (h.hasQuota_iff.mp q)]
      exact h.iterate q _
    · rw [effectOf_step_of_spent q, effectOf_step_of_spent (mt h.hasQuota_iff.mpr q)]
      exact h.raiseFault .eOverrun
  | run =>
    by_cases q : s.hasQuota
    · rw [effectOf_run_of_quota q, effectOf_run_of_quota (h.hasQuota_iff.mp q)]
      exact h.setBusy true
    · rwa [effectOf_run_of_spent q, effectOf_run_of_spent (mt h.hasQuota_iff.mpr q)]

/-- Two engines with the same `ERR` both obey a command or both discard it. -/
theorem State.SameControl.exec {i : Instr} {s' : State} (h : s.SameControl t) (hs : exec i s = .next s') :
    ∃ t', exec i t = .next t' ∧ s'.SameControl t' := by
  rw [exec_eq_obey] at hs ⊢
  obtain ⟨he, rfl⟩ | ⟨he, rfl⟩ := obey_cases hs
  · exact ⟨_, obey_of_noFault (h.err ▸ he) _, h.effectOf i⟩
  · rw [← exec_eq_obey]
    exact ⟨t, exec_of_fault (h.err ▸ he) i, h⟩

end Sys2Proof.Machine

namespace Sys2Proof.Proofs

open Sys2Proof.Machine Sys2Proof.Laws

/-- Settles O39: both engines take the same move, which keeps `SameControl`. -/
theorem controlIgnoresData : Obligations.ControlIgnoresData := by
  unfold Obligations.ControlIgnoresData
  intro s t s' h hs
  have hactive := h.resetActive
  obtain ⟨hr, rfl⟩ | ⟨hr, hb, hi⟩ | ⟨hr, hb, c, rest, ho, he⟩ | ⟨hr, hb, ho, rfl⟩ := step_cases hs <;>
    rw [hr] at hactive
  · exact ⟨_, step_of_reset hactive.symm, h.passTime.resetEngine⟩
  · have q : s.hasQuota := (emitsWord_of_iter hi).quota
    have q' : t.hasQuota := h.hasQuota_iff.mp q
    rw [step_iterates_of_busy q hr hb] at hs
    cases hs
    refine ⟨_, step_iterates_of_busy q' hactive.symm (h.busy ▸ hb), ?_⟩
    rw [h.cnt]
    exact (h.passTime.iterate q q').setBusy _
  · rw [step_of_offer hactive.symm (h.busy ▸ hb) (h.offers ▸ ho)]
    exact h.passTime.acceptOffer.exec he
  · exact ⟨_, step_of_noOffer hactive.symm (h.busy ▸ hb) (h.offers ▸ ho), h.passTime⟩

end Sys2Proof.Proofs

namespace Sys2Proof.Proofs

open Sys2Proof.Machine Sys2Proof.Laws

/-! ### Blocks one after the other (R39, R40, R114, R159) -/

/-- What is left of a longer stretch without `Reset`. -/
theorem noResetFor_of_drop {s t : State} {j k : Nat} (hn : s.NoResetFor (j + k))
    (h : t.resetLine = s.resetLine.drop j) : t.NoResetFor k := by
  rw [State.NoResetFor, h, List.take_drop]
  exact fun hmem => hn (List.mem_of_mem_drop hmem)

/-- What one block leaves for the next: a ready engine, the rest of the host's words and of the reset input. -/
theorem steps_of_blockOffer_next {n : Word} {s : State} {rest : List CmdWord} (hs : s.Ready)
    (ho : s.offers = blockCommands n ++ rest) (hn : s.NoResetFor 127) :
    ∃ u, steps 127 s = .next u ∧ u.Ready ∧ u.offers = rest ∧ u.out = s.out ++ wordsFrom 125 n ∧
      u.resetLine = s.resetLine.drop 127 :=
  ⟨_, steps_of_blockOffer rfl hs ho hn, hs, rfl, rfl, rfl⟩

/-- The blocks of `ns`, no `Reset` among them, emit the words of each seed in order and leave the engine ready. -/
theorem steps_of_blockOffers {ns : List Word} {s : State} {rest : List CmdWord} (hs : s.Ready)
    (ho : s.offers = ns.flatMap blockCommands ++ rest) (hn : s.NoResetFor (127 * ns.length)) :
    ∃ t, steps (127 * ns.length) s = .next t ∧ t.Ready ∧ t.offers = rest ∧
      t.out = s.out ++ ns.flatMap (wordsFrom 125) := by
  induction ns generalizing s with
  | nil => exact ⟨s, rfl, hs, ho, (List.append_nil _).symm⟩
  | cons n ns ih =>
    have hlen : 127 * (n :: ns).length = 127 + 127 * ns.length := by
      rw [List.length_cons]
      omega
    rw [List.flatMap_cons, List.append_assoc] at ho
    rw [hlen] at hn ⊢
    obtain ⟨u, hu, huready, huoffers, huout, huline⟩ :=
      steps_of_blockOffer_next hs ho (noResetFor_of_le hn (Nat.le_add_right 127 _))
    obtain ⟨t, ht, hready, hoffers, hout⟩ := ih huready huoffers (noResetFor_of_drop hn huline)
    refine ⟨t, (steps_add_of_next hu _).trans ht, hready, hoffers, ?_⟩
    rw [hout, huout, List.flatMap_cons, List.append_assoc]

/-- Settles O44: by induction on the blocks. -/
theorem blocksAreIndependent : Obligations.BlocksAreIndependent := by
  unfold Obligations.BlocksAreIndependent
  intro ns s rest hs ho hn
  obtain ⟨t, ht, hready, hoffers, hout⟩ := steps_of_blockOffers hs ho hn
  exact ⟨t, ht, hready, hoffers, hout, fun hrest => ⟨⟨hoffers.trans hrest, hready.1⟩, hready.2⟩⟩

/-! ### The layout of a block and of a file (R32, R34, R35) -/

/-- The tag's two words are the bytes of `helodata` (R34). -/
theorem tagWords_bytes : wordBytes tagWords.1 ++ wordBytes tagWords.2 =
    [0x68#8, 0x65#8, 0x6C#8, 0x6F#8, 0x64#8, 0x61#8, 0x74#8, 0x61#8] := by
  decide

/-- The words of a block lie on multiples of 4, inside the block (R32, R35). -/
theorem wordOffset_layout {k : Nat} (hk : k < 125) :
    wordOffset k = 12 + 4 * k ∧ wordOffset k % 4 = 0 ∧ wordOffset k + 3 ≤ 511 := by
  have h : wordOffset k = 12 + 4 * k := rfl
  omega

theorem fileBytes_succ (count : Nat) :
    fileBytes (count + 1) = fileBytes count ++ blockBytes (BitVec.ofNat 32 count) := by
  simp [fileBytes, List.range_succ]

/-- A file is whole blocks (R34). -/
theorem fileBytes_length (count : Nat) : (fileBytes count).length = 512 * count := by
  induction count with
  | zero => rfl
  | succ count ih => rw [fileBytes_succ, List.length_append, ih, blockBytes_length, Nat.mul_succ]

/-- Settles O47: the buffer is header and words, each word at its offset, and a file is whole blocks. -/
theorem blockBufferHasTheSpecsLayout : Obligations.BlockBufferHasTheSpecsLayout := by
  unfold Obligations.BlockBufferHasTheSpecsLayout
  refine ⟨fun buf n words hbuf hw => ?_, fun k => wordOffset_layout, rfl, rfl, fileBytes_length, fileBytes_length 400⟩
  rw [fillBlock_eq hbuf hw, tagWords_bytes]

end Sys2Proof.Proofs

namespace Sys2Proof.Proofs

open Sys2Proof.Machine Sys2Proof.Laws

/-! ### The words of the commands (R51, R57) -/

/-- Settles O4: each word by its `op`. -/
theorem wordsOfTheSpecDecode : Obligations.WordsOfTheSpecDecode := by
  unfold Obligations.WordsOfTheSpecDecode
  decide

theorem assembleSource_block_of_fits {n : Int} (h : seedFits n = true) :
    assembleSource (.block n) = .ok (blockCommands (BitVec.ofInt 32 n)) :=
  if_pos h

/-- The word of `RUN` (R57). -/
theorem encode_run : encode .run = 0x300000000#34 := by
  decide

/-- Settles O6: the two words of `blockCommands`. -/
theorem blockExpandsToSeedThenRun : Obligations.BlockExpandsToSeedThenRun := by
  unfold Obligations.BlockExpandsToSeedThenRun
  intro n hn
  have hfits : seedFits n = true := (seedFits_iff n).mpr (by omega)
  refine ⟨encode (.seed (BitVec.ofNat 32 n)), ?_, ?_, decode_encode _, encode_run ▸ decode_encode .run⟩
  · rw [assembleSource_block_of_fits hfits, BitVec.ofInt_natCast, blockCommands, encode_run]
  · have harg : (BitVec.ofNat 32 n).toNat = n := by
      rw [BitVec.toNat_ofNat, Nat.mod_eq_of_lt hn]
    rw [encode_toNat, operandOf, harg]
    simp [opcodeOf]

/-! ### The words of a line (R56) -/

/-- The part of a line before the comment ends at the first `;`. -/
theorem takeWhile_append_comment (line comment : List Char) :
    (line ++ ';' :: comment).takeWhile (fun c => c != ';') = line.takeWhile fun c => c != ';' := by
  induction line with
  | nil => rfl
  | cons c line ih => rw [List.cons_append, List.takeWhile_cons, List.takeWhile_cons, ih]

/-- Settles O8: the words are those before the first `;`. -/
theorem commentsAreIgnored : Obligations.CommentsAreIgnored := by
  unfold Obligations.CommentsAreIgnored
  intro line comment
  rw [lineWords, lineWords, takeWhile_append_comment]

/-- A separator ends the first piece. -/
theorem splitAtChars_append {separates : Char → Bool} {piece : List Char} {c : Char} (rest : List Char)
    (hpiece : ∀ d ∈ piece, separates d = false) (hc : separates c = true) :
    splitAtChars separates (piece ++ c :: rest) = piece :: splitAtChars separates rest := by
  induction piece with
  | nil => simp [splitAtChars, hc]
  | cons d piece ih =>
    have hd : separates d = false := hpiece d List.mem_cons_self
    rw [List.cons_append, splitAtChars, hd, ih fun e he => hpiece e (List.mem_cons_of_mem d he)]
    rfl

/-! ### Texts of one command

`LineChar` says that a character ends neither the line nor its commands, and `WordChar` that it is no blank either. -/

/-- A character that is neither a line's end nor the start of a comment. -/
def LineChar (c : Char) : Prop :=
  c ≠ '\n' ∧ c ≠ ';'

/-- A character that may stand in a word of a line. -/
def WordChar (c : Char) : Prop :=
  LineChar c ∧ isBlank c = false

/-- Appending no words or commands changes nothing. -/
theorem appendOk_nil {α : Type} (a : Except AsmError (List α)) : appendOk a (.ok []) = a := by
  cases a with
  | error e => rfl
  | ok xs => rw [appendOk, List.append_nil]

/-- The text of one line with one command assembles to the words of that command. -/
theorem assemble_of_line {text : List Char} {cmd : Source} (htext : ∀ c ∈ text, LineChar c)
    (hcmd : parseWords (lineWords text) = .ok [cmd]) : assemble text = assembleSource cmd := by
  have hline : splitAtChars (fun c => c == '\n') text = [text] :=
    splitAtChars_of_none _ _ fun c hc => beq_false_of_ne (htext c hc).1
  have hparse : parseLines [text] = .ok [cmd] := by rw [parseLines, parseLines, appendOk_nil, hcmd]
  rw [assemble, hline, hparse]
  exact appendOk_nil _

/-- Two words with a space between them are the words of their line. -/
theorem lineWords_two {v w : List Char} (hv : ∀ c ∈ v, WordChar c) (hw : ∀ c ∈ w, WordChar c) (hv0 : v ≠ [])
    (hw0 : w ≠ []) : lineWords (v ++ ' ' :: w) = [v, w] := by
  have hno : ∀ c ∈ v ++ ' ' :: w, (c != ';') = true := by
    intro c hc
    rw [List.mem_append, List.mem_cons] at hc
    obtain hc | rfl | hc := hc
    · exact bne_iff_ne.mpr (hv c hc).1.2
    · decide
    · exact bne_iff_ne.mpr (hw c hc).1.2
  have hsplit : splitAtChars isBlank (v ++ ' ' :: w) = [v, w] := by
    rw [splitAtChars_append w (fun c hc => (hv c hc).2) (by decide), splitAtChars_of_none _ _ fun c hc => (hw c hc).2]
  rw [lineWords, List.takeWhile_eq_self_iff.mpr hno, hsplit]
  simp [hv0, hw0]

/-! ### A seed in decimal (log 11) -/

/-- A character that is a decimal digit. -/
def IsDigit (c : Char) : Prop :=
  48 ≤ c.toNat ∧ c.toNat ≤ 57

/-- No digit is a separator, or the `x` of `0x`. -/
theorem IsDigit.wordChar {c : Char} (h : IsDigit c) : WordChar c := by
  have hne (d : Char) (hd : ¬IsDigit d) : c ≠ d := fun heq => hd (heq ▸ h)
  refine ⟨⟨hne _ (by simp [IsDigit]), hne _ (by simp [IsDigit])⟩, ?_⟩
  simp [isBlank, hne ' ' (by simp [IsDigit]), hne '\t' (by simp [IsDigit]), hne '\r' (by simp [IsDigit])]

theorem isDigit_ofNat {d : Nat} (hd : d < 10) : IsDigit (Char.ofNat (48 + d)) := by
  revert d
  unfold IsDigit
  decide

/-- Printing a digit and reading it. -/
theorem decimalDigit_ofNat {d : Nat} (hd : d < 10) : decimalDigit (Char.ofNat (48 + d)) = some d := by
  revert d
  decide

theorem decimalBefore_isDigit {fuel n : Nat} {after : List Char} (ha : ∀ c ∈ after, IsDigit c) :
    ∀ c ∈ decimalBefore fuel n after, IsDigit c := by
  induction fuel generalizing n after with
  | zero => exact ha
  | succ fuel ih =>
    have hhere : ∀ c ∈ Char.ofNat (48 + n % 10) :: after, IsDigit c := by
      intro c hc
      obtain rfl | hc := List.mem_cons.mp hc
      · exact isDigit_ofNat (Nat.mod_lt n (by decide))
      · exact ha c hc
    rw [decimalBefore]
    split
    · exact hhere
    · exact ih hhere

theorem decimalBefore_ne_nil {fuel n : Nat} {after : List Char} (h : fuel ≠ 0 ∨ after ≠ []) :
    decimalBefore fuel n after ≠ [] := by
  induction fuel generalizing n after with
  | zero => exact h.resolve_left (not_not_intro rfl)
  | succ fuel ih =>
    rw [decimalBefore]
    split
    · exact List.cons_ne_nil _ _
    · exact ih (.inr (List.cons_ne_nil _ _))

theorem parseDigits_cons {digit : Char → Option Nat} {c : Char} {d : Nat} (h : digit c = some d) (base acc : Nat)
    (cs : List Char) : parseDigits digit base acc (c :: cs) = parseDigits digit base (acc * base + d) cs := by
  rw [parseDigits, h]

/-- Reading the digits that are printed in front of `after` gives the number printed. -/
theorem parseDigits_decimalBefore {n : Nat} (fuel : Nat) (hn : n < 10 ^ fuel) (after : List Char) :
    parseDigits decimalDigit 10 0 (decimalBefore fuel n after) = parseDigits decimalDigit 10 n after := by
  induction fuel generalizing n after with
  | zero =>
    have h0 : n = 0 := Nat.lt_one_iff.mp hn
    rw [decimalBefore, h0]
  | succ fuel ih =>
    have hdigit := decimalDigit_ofNat (Nat.mod_lt n (by decide : 10 > 0))
    rw [decimalBefore]
    split
    · next hlt =>
      rw [parseDigits_cons hdigit 10, Nat.mod_eq_of_lt hlt, Nat.zero_mul, Nat.zero_add]
    · have hdiv : n / 10 < 10 ^ fuel := Nat.div_lt_of_lt_mul (by rwa [← Nat.pow_succ'])
      rw [ih hdiv, parseDigits_cons hdigit 10, Nat.div_add_mod']

/-- A text of digits is read in decimal: it does not begin with `0x`. -/
theorem parseNumber_of_isDigit {text : List Char} (h : ∀ c ∈ text, IsDigit c) (h0 : text ≠ []) :
    parseNumber text = parseDigits decimalDigit 10 0 text := by
  have hx : 'x' ∉ text := fun hmem => absurd (h 'x' hmem) (by simp [IsDigit])
  unfold parseNumber
  split
  · exact absurd rfl h0
  · split
    · simp at hx
    · rfl

theorem decimalText_isDigit (n : Word) : ∀ c ∈ decimalText n, IsDigit c :=
  decimalBefore_isDigit fun _ hc => absurd hc List.not_mem_nil

theorem decimalText_ne_nil (n : Word) : decimalText n ≠ [] :=
  decimalBefore_ne_nil (.inl (by decide))

/-- Reading a seed that was printed: ten digits hold every 32-bit number. -/
theorem parseNumber_decimalText (n : Word) : parseNumber (decimalText n) = some n.toNat := by
  have hn : n.toNat < 10 ^ 10 := Nat.lt_trans n.isLt (by decide)
  rw [parseNumber_of_isDigit (decimalText_isDigit n) (decimalText_ne_nil n), decimalText,
    parseDigits_decimalBefore 10 hn, parseDigits]

/-! ### Assembling what the disassembler prints (R56) -/

theorem textSeed_wordChar : ∀ c ∈ textSeed, WordChar c := by
  simp [textSeed, WordChar, LineChar, isBlank]

/-- The line of a seed has two words, and its operand is the seed. -/
theorem parseWords_seedLine (n : Word) :
    parseWords (lineWords (textSeed ++ ' ' :: decimalText n)) = .ok [.seed n.toNat] := by
  rw [lineWords_two textSeed_wordChar (fun c hc => (decimalText_isDigit n c hc).wordChar) (by decide)
    (decimalText_ne_nil n), parseWords, if_pos rfl, withOperand, parseNumber_decimalText]

theorem seedLine_lineChar (n : Word) : ∀ c ∈ textSeed ++ ' ' :: decimalText n, LineChar c := by
  intro c hc
  rw [List.mem_append, List.mem_cons] at hc
  obtain hc | rfl | hc := hc
  · exact (textSeed_wordChar c hc).1
  · unfold LineChar
    decide
  · exact (decimalText_isDigit n c hc).wordChar.1

theorem seedFits_toNat (n : Word) : seedFits n.toNat = true :=
  wellFormed_all (.seed n)

theorem assemble_seedLine (n : Word) : assemble (textSeed ++ ' ' :: decimalText n) = .ok [encode (.seed n)] := by
  rw [assemble_of_line (seedLine_lineChar n) (parseWords_seedLine n), assembleSource_seed_of_fits (seedFits_toNat n),
    BitVec.ofInt_natCast, BitVec.ofNat_toNat, BitVec.setWidth_eq]

/-- Settles O7: the text of each command assembles to the command's word, which is `encode (decode c)`. -/
theorem assembleAfterDisassemble : Obligations.AssembleAfterDisassemble := by
  unfold Obligations.AssembleAfterDisassemble
  intro c
  rw [← encode_decode, disassemble]
  cases decode c with
  | rsvd0 => decide
  | seed n => exact assemble_seedLine n
  | step => decide
  | run => decide

end Sys2Proof.Proofs
